-- ==== Sys2Proof/Config.lean ====
section
/-! DEFINITION. What an implementation of the CollarTX core fixes (the parameters of 00_scope.md R8, at their defaults)
and the free values: opaque constants that nothing in Lean can evaluate, for the answers of the environment that no rule
fixes (10_state.md R37). -/

namespace Sys2Proof

/-- How a requested wait ends (41_phase_transmitter.md R89): after the requested time and an excess in nanoseconds that
only the environment knows, or never (43_run_control.md R123: a hang). -/
inductive WaitAnswer where
  | ends (excess : Nat)
  | never
  deriving DecidableEq, Repr, Inhabited

namespace Config

/-- `REPEAT_W`: width of `repeat` (R8, decision D2). -/
abbrev repeatW : Nat := 16
/-- `TU_W`: width of the TimingUnit register (R8, decision D3). -/
abbrev tuW : Nat := 32
/-- `CLK_W`: width of a timestamp in nanoseconds (R8, decision D9). -/
abbrev clkW : Nat := 64
/-- `TID_W`, `CHAN_W`, `MODE_W`, `STR_W`, `CK_W`, `POST_W` (R8): the widths of the frame's fields. -/
abbrev tidW : Nat := 16
abbrev chanW : Nat := 4
abbrev modeW : Nat := 4
abbrev strW : Nat := 8
abbrev ckW : Nat := 8
abbrev postW : Nat := 2
/-- `FRAME_BITS`: logical bits per frame, preamble excluded (R8: 42, the sum of the widths; conflict C1). -/
abbrev frameBits : Nat := tidW + chanW + modeW + strW + ckW + postW
/-- `PRE_QP`: quarter-phases of the preamble (R8). -/
abbrev preQp : Nat := 8
/-- `QP_PER_BIT`: quarter-phases per logical bit (R8). -/
abbrev qpPerBit : Nat := 4
/-- `FRAME_QP`: quarter-phases per frame (R8: 176; conflict C1). -/
abbrev frameQp : Nat := preQp + frameBits * qpPerBit
/-- `CAL_DIVISOR_QP`: divisor of the calibrator's measurement (R8). -/
abbrev calDivisorQp : Nat := 176
/-- `TARGET_QP_RATE`: quarter-phases per second aimed at (R8). -/
abbrev targetQpRate : Nat := 4000
/-- `SEED_QP_US`: the calibration seed, 1 000 000 / 4000 microseconds (R8, R104). -/
abbrev seedQpUs : Nat := 1000000 / targetQpRate
/-- `NOMINAL_QP_US`: nominal microseconds per quarter-phase (R8, decision D5, conflict C2). -/
abbrev nominalQpUs : Nat := 250
/-- `CAL_ITERS`: calibration iterations (R8). -/
abbrev calIters : Nat := 10
/-- `LINE_RESET`: the level of `LINE` after reset (R8, decision D10). -/
abbrev lineReset : Bool := false
/-- `CAL_ON_LINE`: the calibration frames drive the output line (R8, decision D16). -/
abbrev calOnLine : Bool := true
/-- `OVH_MAX_NS`: an optional bound on the excess of a wait, absent by default and a premise of a claim when present
(R8, decision D8). -/
abbrev ovhMaxNs : Option Nat := none

/-- The excess of a wait under the premise `OVH_MAX_NS`: every excess when it is absent, and no excess above it when it is
present. DESIGN CHOICE (log 24): an answer above the bound counts as the bound, and the bound says nothing of a wait that
never ends, which has no excess. -/
abbrev excess (x : Nat) : Nat :=
  match ovhMaxNs with
  | none => x
  | some b => min x b

/-- FREE VALUE: the sink's answer to a commit, once the answers supplied in the state are used up (R88; log 3). -/
opaque sinkAnswer : Nat → Bool
/-- FREE VALUE: the cancellation flag at a read, once the supplied answers are used up (R47; log 3). -/
opaque cancelAnswer : Nat → Bool
/-- FREE VALUE: how a wait ends, once the supplied answers are used up (R89; log 3, log 5). -/
opaque waitAnswer : Nat → WaitAnswer
/-- FREE VALUE: the nanoseconds that pass outside the waits before a clock read, once the supplied ones are used up
(R46; log 3). -/
opaque clockDrift : Nat → Nat
/-- FREE VALUE: what the clock shows past 2^`CLK_W` nanoseconds, which D9 excludes by premise (log 4). -/
opaque clockPast : Nat → BitVec clkW
/-- FREE VALUE: the physical level of the line where no rule fixes it: after a failed commit (93 U8) and after a reset
(log 16). -/
opaque pinLevel : Nat → Bool

end Config
end Sys2Proof
end

