-- ==== Sys2Proof/Word.lean ====
section
/-! DEFINITION. The word types of the CollarTX core. Every quantity is unsigned (00_scope.md R9); bit 0 is the least
significant bit. The widths that 00_scope.md R8 decides are read from Config; those of the one fixed frame format (R3) are
written out, and equal Config's. -/

namespace Sys2Proof

/-- A level of the output line (00_scope.md R10): `true` is `H` (high, bit value 1), `false` is `L` (low, bit value 0). -/
abbrev Level := Bool

/-- A 16-bit transmitter identifier (10_state.md R21). -/
abbrev TidWord := BitVec 16
/-- A 4-bit channel or mode (10_state.md R22, R23). -/
abbrev Nibble := BitVec 4
/-- An 8-bit strength or checksum (10_state.md R24, 40_frame_encoder.md R71). -/
abbrev Byte := BitVec 8
/-- A count of repetitions (10_state.md R25): `REPEAT_W` bits. -/
abbrev RepeatCount := BitVec Config.repeatW
/-- The 42 logical bits of a frame, `W[41]` sent first (30_encoding.md R57). -/
abbrev LogicalWord := BitVec 42
/-- A TimingUnit: whole microseconds (10_state.md R31): `TU_W` bits. -/
abbrev Micros := BitVec Config.tuW
/-- A timestamp: whole nanoseconds (10_state.md R33): `CLK_W` bits. -/
abbrev Nanos := BitVec Config.clkW

theorem tidWord_width : TidWord = BitVec Config.tidW := rfl
theorem logicalWord_width : LogicalWord = BitVec Config.frameBits := rfl
theorem byte_width : Byte = BitVec Config.strW ∧ Byte = BitVec Config.ckW := ⟨rfl, rfl⟩
theorem nibble_width : Nibble = BitVec Config.chanW ∧ Nibble = BitVec Config.modeW := ⟨rfl, rfl⟩

end Sys2Proof
end

