-- ==== Sys2Proof/Machine/Frame.lean ====
section
/-! DEFINITION. The frame format on plain words: symbols, MSB-first expansion, checksum, the logical word and the level of
a slot (30_encoding.md R53 to R60, 40_frame_encoder.md R71 to R86). Pure functions: no register is read or written. -/

namespace Sys2Proof.Machine

/-- `PRE`: `HHHHHHLL` (R53, R73). -/
def preLevels : List Level := [true, true, true, true, true, true, false, false]

/-- `SYM(v)` (R54, R75): `BIT1` is `HHHL`, `BIT0` is `HLLL`. -/
def sym (v : Bool) : List Level := [true, v, v, false]

/-- The bits of a field, most significant first (20_memory.md R42). -/
def bitsMsb {n : Nat} (x : BitVec n) : List Bool := (List.range n).map x.getMsbD

/-- `EXPAND(x, n)` (40_frame_encoder.md section 5): the symbols of the bits of `x`, most significant first. -/
def expand {n : Nat} (x : BitVec n) : List Level := (bitsMsb x).flatMap sym

/-- The byte `channel<<4 | mode` (30_encoding.md R65). -/
def chanModeByte (chan mode : Nibble) : Byte := chan ++ mode

/-- `CHECKSUM` (R71): a 10-bit sum of four bytes, of which the low 8 bits are kept. -/
def checksumOf (tid : TidWord) (chan mode : Nibble) (str : Byte) : Byte :=
  let s : BitVec 10 :=
    (tid.extractLsb' 8 8).setWidth 10 + (tid.extractLsb' 0 8).setWidth 10
      + (chanModeByte chan mode).setWidth 10 + str.setWidth 10
  s.extractLsb' 0 8

/-- The concatenation of R57: `W[41:0] = { TID, CHAN, MODE, STR, CK, 2'b00 }`. -/
def concatWord (tid : TidWord) (chan mode : Nibble) (str ck : Byte) : LogicalWord :=
  tid ++ chan ++ mode ++ str ++ ck ++ (0#2)

/-- `PACK` (R72): the checksum is computed first and placed as a field like any other. -/
def packOf (tid : TidWord) (chan mode : Nibble) (str : Byte) : LogicalWord :=
  concatWord tid chan mode str (checksumOf tid chan mode str)

/-- The fields of a logical word (R57). -/
def wordTid (w : LogicalWord) : TidWord := w.extractLsb' 26 16
def wordChan (w : LogicalWord) : Nibble := w.extractLsb' 22 4
def wordMode (w : LogicalWord) : Nibble := w.extractLsb' 18 4
def wordStr (w : LogicalWord) : Byte := w.extractLsb' 10 8
def wordCsum (w : LogicalWord) : Byte := w.extractLsb' 2 8
def wordPost (w : LogicalWord) : BitVec 2 := w.extractLsb' 0 2

/-- A word is one that PACK gives (R57, R72): postfix `2'b00`, and the checksum field of R71. -/
def isFrameWord (w : LogicalWord) : Bool :=
  wordPost w == 0 && wordCsum w == checksumOf (wordTid w) (wordChan w) (wordMode w) (wordStr w)

/-- The level of slot `q` as the field-pack multiplexer selects it (R60, R82). -/
def levelAt (w : LogicalWord) (q : Nat) : Level :=
  if q < 8 then decide (q < 6)
  else
    let b := (q - 8) / 4
    let p := (q - 8) % 4
    let v := w.getLsbD (41 - b)
    if p = 0 then true else if p = 3 then false else v

/-- `FrameLevel(W, q)` (20_memory.md R41): no value outside 0 to 175. -/
def frameLevel (w : LogicalWord) (q : Nat) : Option Level :=
  if q ≤ 175 then some (levelAt w q) else none

/-- The 176 levels a logical word stands for: the preamble, then its 42 bits as symbols (R57, R58). -/
def wordLevels (w : LogicalWord) : List Level := preLevels ++ expand w

/-- The two symbols of the postfix (R56, R81). -/
def postLevels : List Level := sym false ++ sym false

/-- `ENCODE` (R83): the tokens in their fixed order. -/
def encodeOf (tid : TidWord) (chan mode : Nibble) (str : Byte) : List Level :=
  preLevels ++ expand tid ++ expand chan ++ expand mode ++ expand str
    ++ expand (checksumOf tid chan mode str) ++ postLevels

end Sys2Proof.Machine
end

