-- ==== Sys2Proof/Syntax.lean ====
section
/-! DEFINITION. The operations of the CollarTX core: one constructor per row of spec/opcode_table.json. -/

namespace Sys2Proof

/-- The three faults of 60_exceptions.md R130. -/
inductive Cause where
  | sinkFault
  | calDivideByZero
  | calOverflow
  deriving DecidableEq, Repr

/-- One constructor per row of the operation table. A row with a pattern carries the bits of its variable fields; an
operation (30_encoding.md R69: no bit encoding) carries the operands its rule names. Operations that read the active
parameters `A` (10_state.md R30) carry none. -/
inductive Instr where
  -- symbols (30_encoding.md R53, R54)
  | pre
  | bit1
  | bit0
  -- the logical word (R57)
  | frame (w : LogicalWord)
  -- tokens (R59)
  | tid (v : TidWord)
  | chan (v : Nibble)
  | mode (v : Nibble)
  | str (v : Byte)
  | csum (v : Byte)
  | post
  -- field values (R61, R62)
  | chanChannel1
  | chanChannel2
  | chanChannel3
  | chanReserved3
  | modeCalDummy
  | modeShock
  | modeVibrate
  | modeBeep
  -- the encoder's operations (40_frame_encoder.md)
  | checksum
  | pack
  | slot (w : LogicalWord) (q : Byte)
  | encode
  -- the phase transmitter (41_phase_transmitter.md)
  | commit (l : Level)
  | wait (tu : Micros)
  | qstep (w : LogicalWord)
  | transmit (w : LogicalWord)
  | send
  -- the calibrator (42_calibrator.md)
  | calSeed
  | calMeasure
  | calCorrect (meas : Nat)
  | calibrate
  -- run control (43_run_control.md)
  | runCal
  | runOvr
  | calframe
  -- host actions: the values offered to the six ports are natural numbers (R64, R121)
  | pWrite (tid chan mode str rpt ovr : Nat)
  | start
  | reset
  -- the abort (60_exceptions.md R133)
  | abort (c : Cause)
  deriving DecidableEq, Repr

end Sys2Proof
end

