-- ==== Sys2Proof/WellFormed.lean ====
section
/-! DEFINITION. Which terms of Instr the spec gives a meaning: slot indices of a frame (20_memory.md R41), and logical words
with the postfix of 30_encoding.md R56, R57 for the row FRAME (log 14). -/

namespace Sys2Proof

/-- The checks on an operation's operands. -/
def wellFormed : Instr → Bool
  | .frame w => Machine.wordPost w == 0
  | .slot _ q => decide (q.toNat ≤ 175)
  | .pre | .bit1 | .bit0 | .tid _ | .chan _ | .mode _ | .str _ | .csum _ | .post => true
  | .chanChannel1 | .chanChannel2 | .chanChannel3 | .chanReserved3 => true
  | .modeCalDummy | .modeShock | .modeVibrate | .modeBeep => true
  | .checksum | .pack | .encode | .commit _ | .wait _ | .qstep _ | .transmit _ | .send => true
  | .calSeed | .calMeasure | .calCorrect _ | .calibrate | .runCal | .runOvr | .calframe => true
  | .pWrite .. | .start | .reset | .abort _ => true

end Sys2Proof
end

