-- ==== Sys2Proof/Decode.lean ====
section
/-! DEFINITION. Reading and writing the patterns of spec/opcode_table.json. A pattern means something only in the space it
belongs to (levels of a symbol, the logical word, a token's field, a field's enumerated values: 30_encoding.md R53 to
R62), so the decoder is given the space. Patterns are read as numbers, bit 0 the last bit sent (00_scope.md R9).
Operations have no bit encoding (R69): encode answers none for them. -/

namespace Sys2Proof

/-- Where a pattern stands. -/
inductive Space where
  | symbol
  | logicalWord
  | tidField
  | chanField
  | modeField
  | strField
  | csumField
  | postField
  | chanValue
  | modeValue
  deriving DecidableEq, Repr

/-- Why a pattern is no row of the table. -/
inductive DecodeError where
  /-- More bits than the space has. -/
  | tooWide
  /-- Levels that are no symbol (R53, R54). -/
  | noSymbol
  /-- A logical word or a postfix whose last two bits are not 00 (R56, R57). -/
  | badPostfix
  /-- A level sequence that is not 176 levels long (R58). -/
  | badLength
  /-- A level sequence that does not begin with PRE (R53). -/
  | badPreamble
  deriving DecidableEq, Repr

/-- The bits a space has; a symbol has at most 8 levels. -/
def Space.width : Space → Nat
  | .symbol => 8
  | .logicalWord => 42
  | .tidField => 16
  | .chanField => 4
  | .modeField => 4
  | .strField => 8
  | .csumField => 8
  | .postField => 2
  | .chanValue => 4
  | .modeValue => 4

/-- Symbols, the first level the most significant bit (R53, R54). -/
def decodeSymbolPattern (n : Nat) : Except DecodeError Instr :=
  if n = 0xFC then .ok .pre
  else if n = 0xE then .ok .bit1
  else if n = 0x8 then .ok .bit0
  else .error .noSymbol

/-- A logical word: the postfix must be that of R57. The checksum field may hold any value: the level of a slot is defined
for every word (40_frame_encoder.md R82; log 14). -/
def decodeLogicalWord (n : Nat) : Except DecodeError Instr :=
  let w : LogicalWord := BitVec.ofNat 42 n
  if Machine.wordPost w ≠ 0 then .error .badPostfix
  else .ok (.frame w)

/-- The named values of `channel` (R61); any other is sent verbatim as the token's field (R66; log 13). -/
def decodeChanValue : Nat → Except DecodeError Instr
  | 0 => .ok .chanChannel1
  | 1 => .ok .chanChannel2
  | 2 => .ok .chanChannel3
  | 3 => .ok .chanReserved3
  | n + 4 => .ok (.chan (BitVec.ofNat 4 (n + 4)))

/-- The named values of `mode` (R62); any other is sent verbatim as the token's field (R66; log 13). -/
def decodeModeValue : Nat → Except DecodeError Instr
  | 0 => .ok .modeCalDummy
  | 1 => .ok .modeShock
  | 2 => .ok .modeVibrate
  | 3 => .ok .modeBeep
  | n + 4 => .ok (.mode (BitVec.ofNat 4 (n + 4)))

/-- The decoder: total on every space and every number. -/
def decode (sp : Space) (n : Nat) : Except DecodeError Instr :=
  if 2 ^ sp.width ≤ n then .error .tooWide
  else
    match sp with
    | .symbol => decodeSymbolPattern n
    | .logicalWord => decodeLogicalWord n
    | .tidField => .ok (.tid (BitVec.ofNat 16 n))
    | .chanField => .ok (.chan (BitVec.ofNat 4 n))
    | .modeField => .ok (.mode (BitVec.ofNat 4 n))
    | .strField => .ok (.str (BitVec.ofNat 8 n))
    | .csumField => .ok (.csum (BitVec.ofNat 8 n))
    | .postField => if n = 0 then .ok .post else .error .badPostfix
    | .chanValue => decodeChanValue n
    | .modeValue => decodeModeValue n

/-- The encoder, from the same table: the space and the pattern of a row that has one, none for an operation (R69). -/
def encode : Instr → Option (Space × Nat)
  | .pre => some (.symbol, 0xFC)
  | .bit1 => some (.symbol, 0xE)
  | .bit0 => some (.symbol, 0x8)
  | .frame w => some (.logicalWord, w.toNat)
  | .tid v => some (.tidField, v.toNat)
  | .chan v => some (.chanField, v.toNat)
  | .mode v => some (.modeField, v.toNat)
  | .str v => some (.strField, v.toNat)
  | .csum v => some (.csumField, v.toNat)
  | .post => some (.postField, 0)
  | .chanChannel1 => some (.chanValue, 0)
  | .chanChannel2 => some (.chanValue, 1)
  | .chanChannel3 => some (.chanValue, 2)
  | .chanReserved3 => some (.chanValue, 3)
  | .modeCalDummy => some (.modeValue, 0)
  | .modeShock => some (.modeValue, 1)
  | .modeVibrate => some (.modeValue, 2)
  | .modeBeep => some (.modeValue, 3)
  | .checksum | .pack | .slot .. | .encode => none
  | .commit _ | .wait _ | .qstep _ | .transmit _ | .send => none
  | .calSeed | .calMeasure | .calCorrect _ | .calibrate => none
  | .runCal | .runOvr | .calframe => none
  | .pWrite .. | .start | .reset | .abort _ => none

/-- One symbol off the front of a level sequence: the three symbols are told apart by the width of their high pulse
(R55 (c)). -/
def decodeSymbol : List Level → Except DecodeError (Instr × List Level)
  | true :: true :: true :: true :: true :: true :: false :: false :: rest => .ok (.pre, rest)
  | true :: true :: true :: false :: rest => .ok (.bit1, rest)
  | true :: false :: false :: false :: rest => .ok (.bit0, rest)
  | _ => .error .noSymbol

/-- `n` symbols off the front of a level sequence. -/
def decodeSymbols : Nat → List Level → Except DecodeError (List Instr × List Level)
  | 0, ls => .ok ([], ls)
  | n + 1, ls =>
    match decodeSymbol ls with
    | .ok (i, rest) =>
      match decodeSymbols n rest with
      | .ok (is, rest) => .ok (i :: is, rest)
      | .error e => .error e
    | .error e => .error e

/-- The word whose bit `b` (in order of sending) is the level of slot `9 + 4b` (R60, the converse). -/
def sampleWord (ls : List Level) : LogicalWord :=
  BitVec.ofFnLE fun i : Fin 42 => ls.getD (9 + 4 * (41 - i.val)) false

/-- The logical word of a whole frame's levels (R57 to R60), or why they are no frame. -/
def decodeFrame (ls : List Level) : Except DecodeError LogicalWord :=
  if ls.length ≠ 176 then .error .badLength
  else if ls.take 8 ≠ Machine.preLevels then .error .badPreamble
  else
    let w := sampleWord ls
    if Machine.wordLevels w ≠ ls then .error .noSymbol
    else if Machine.wordPost w ≠ 0 then .error .badPostfix
    else .ok w

/-- The space in which a table word is read when only its length in bits and its number are known: a row without variable
bits comes before a row with them, and among equals the first in the table's order (log 13). -/
def tableSpace (nbits w : Nat) : Space :=
  if nbits ≤ 8 then
    if (decode .symbol w).isOk then .symbol
    else if (decode .chanValue w).isOk then .chanValue
    else .strField
  else if nbits ≤ 16 then .tidField
  else .logicalWord

/-- The operation the decoder reads from a table word of `nbits` bits. -/
def decodeTableWord (nbits w : Nat) : Option Instr :=
  match decode (tableSpace nbits w) w with
  | .ok i => some i
  | .error _ => none

end Sys2Proof
end

