-- ==== Sys2Proof/Machine/State.lean ====
section
/-! DEFINITION. The state of the CollarTX core (10_state.md R20), of the environment it observes (R37), the event history
(00_scope.md R13) and the host's inputs (43_run_control.md R117), all plain data; the reasons a step can stop; reset. -/

namespace Sys2Proof.Machine

/-- The stage of the run (10_state.md R28). -/
inductive Phase where
  | idle
  | cal
  | tx
  | done
  | fatal
  deriving DecidableEq, Repr

/-- The five values a command is made of: the parameter registers (R21 to R25), or the active parameters (R30). -/
structure Params where
  tid : TidWord
  chan : Nibble
  mode : Nibble
  str : Byte
  rpt : RepeatCount
  deriving DecidableEq, Repr

/-- An event of the history (00_scope.md R13). -/
inductive Event where
  | commit (l : Level)
  | wait (tu : Micros) (d : Nat)
  | clock (t : Nanos)
  | cancel (b : Bool)
  | fault (c : Cause)
  deriving DecidableEq, Repr

/-- What an operation presents as its result. The encoder's operations write no register (40_frame_encoder.md R70): their
results appear here, the model's own wires (log 1). -/
inductive Value where
  | none
  | level (l : Level)
  | levels (ls : List Level)
  | fieldValue (v : Nibble) (ls : List Level)
  | checksum (ck : Byte)
  | word (w : LogicalWord)
  | measured (meas : Nat)
  deriving DecidableEq, Repr

/-- What stands at the core's inputs at one step (log 9): nothing, one of the three host actions (43_run_control.md R117,
R126), or a pattern to be read in its space. No other operation can be presented: the core sequencer is the only agent
that executes operations (00_scope.md R7). -/
inductive HostInput where
  | quiet
  | word (sp : Space) (n : Nat)
  /-- The strobe `p_write` with the values at the six data ports (R121). -/
  | pWrite (tid chan mode str rpt ovr : Nat)
  /-- The strobe `start` (R118). -/
  | start
  /-- The strobe `reset` (70_reset_and_hazards.md R150). -/
  | reset
  deriving DecidableEq, Repr

/-- The environment (10_state.md R37): its answers still to come, the true time, the physical line. When a list of
answers is used up, every further answer is a free value indexed by `draws` (log 3). -/
structure Env where
  /-- The true time in nanoseconds (20_memory.md R46). -/
  now : Nat
  /-- Answers to commits: could the sink be driven (41_phase_transmitter.md R88)? -/
  sink : List Bool
  /-- Answers to reads of the cancellation flag (20_memory.md R47). -/
  cancel : List Bool
  /-- How the waits end (R89). -/
  waits : List WaitAnswer
  /-- Nanoseconds that pass outside the waits before each clock read (R46). -/
  drift : List Nat
  /-- The physical level of the line (60_exceptions.md R136, 93 U8; log 16). -/
  pin : Level
  /-- How many free values have been drawn (the model's own counter). -/
  draws : Nat
  deriving DecidableEq, Repr

/-- The state. -/
structure State where
  /-- `P.TID`, `P.CHAN`, `P.MODE`, `P.STR`, `P.REPEAT` (R21 to R25). -/
  p : Params
  /-- The parameter registers have been written since reset (43_run_control.md R118, R121). -/
  written : Bool
  /-- `OVR` (R26): microseconds, 0 means no override. -/
  ovr : Micros
  /-- `PHASE` (R28). -/
  phase : Phase
  /-- `ITER` (R29): finished calibration iterations. -/
  iter : BitVec 4
  /-- `REP` (R29): finished repetitions of the current SEND. -/
  rep : RepeatCount
  /-- `QIDX` (R29): the slot handled next. -/
  qidx : BitVec 8
  /-- `TU` (R31): the TimingUnit. -/
  tu : Micros
  /-- `TUF` (R32): the TimingUnit is frozen. -/
  tuf : Bool
  /-- `T0` (R33): the first timestamp of the iteration. -/
  t0 : Nanos
  /-- `LINE` (R34): the level last driven. -/
  line : Level
  /-- `BUSY` (R35). -/
  busy : Bool
  /-- `DONE` (R35). -/
  doneFlag : Bool
  /-- `FATAL` (R35). -/
  fatalFlag : Bool
  /-- `CANCELLED` (R35). -/
  cancelled : Bool
  /-- `CAUSE` (R35). -/
  cause : BitVec 2
  /-- The ports `wait_req` and `wait_us` (43_run_control.md R117) as a step leaves them: the wait that was requested and
  never ends, a hang (R123; log 5). -/
  waiting : Option Micros
  /-- The environment (R37). -/
  env : Env
  /-- The event history, the newest event first (00_scope.md R13; log 17). -/
  hist : List Event
  /-- The host's inputs still to come, one a step (log 9). -/
  inputs : List HostInput
  /-- The result last presented (log 1). -/
  out : Value
  deriving DecidableEq, Repr

/-- What the host reads (43_run_control.md R117, R122). -/
structure Ports where
  line : Level
  tu : Micros
  rep : RepeatCount
  busy : Bool
  done : Bool
  fatal : Bool
  cancelled : Bool
  cause : BitVec 2
  waitReq : Bool
  waitUs : Micros
  deriving DecidableEq, Repr

/-- Why the machine stands still. The three faults of 60_exceptions.md R130 are not here: they are TAKEN, and the machine
goes on to PHASE = FATAL. A wait that never ends is no fault either (60_exceptions.md R135): it is a state. -/
inductive Fault where
  /-- Raised by QSTEP, TRANSMIT's slots and the sequencer at a position `QIDX` above 175, which 10_state.md R29 says does
  not occur and at which 20_memory.md R41 gives no level. Safe: no run reaches it (log 23). -/
  | qidxOutOfRange
  deriving DecidableEq, Repr

/-- Why the model offers no move. -/
inductive Refusal where
  /-- No meaning yet. Raised by no arm of exec. Safe. -/
  | notModelled (mnemonic : String)
  /-- Raised by an operation presented where the sequencer position does not select it (30_encoding.md R69; log 8). Safe. -/
  | notSelected
  /-- Raised by SLOT for a slot index above 175 (20_memory.md R41, decision D21). Safe. -/
  | slotOutOfRange
  /-- Raised by the step on a pattern that is no row of the table. Safe. -/
  | undecoded (why : DecodeError)
  deriving DecidableEq, Repr

/-- The environment of the reset state: no answer supplied (log 3). -/
def Env.initial : Env where
  now := 0
  sink := []
  cancel := []
  waits := []
  drift := []
  pin := false
  draws := 0

/-- The machine right after reset (10_state.md R39, 70_reset_and_hazards.md R150). The parameter registers and `T0` hold
no value there: zero is the model's choice (log 2). -/
def State.reset : State where
  p := { tid := 0, chan := 0, mode := 0, str := 0, rpt := 0 }
  written := false
  ovr := 0
  phase := .idle
  iter := 0
  rep := 0
  qidx := 0
  tu := 0
  tuf := false
  t0 := 0
  line := Config.lineReset
  busy := false
  doneFlag := false
  fatalFlag := false
  cancelled := false
  cause := 0
  waiting := none
  env := Env.initial
  hist := []
  inputs := []
  out := .none

end Sys2Proof.Machine
end

