-- ==== Sys2Proof/Machine/Flags.lean ====
section
/-! DEFINITION. The status flags and the cause code (10_state.md R35, 60_exceptions.md R130), and the changes of phase that
write them (43_run_control.md R119, R127). -/

namespace Sys2Proof.Machine

/-- The code of a fault in `CAUSE` (R130). -/
def causeCode : Cause → BitVec 2
  | .sinkFault => 1
  | .calDivideByZero => 2
  | .calOverflow => 3

/-- `PHASE` is `CAL` or `TX`: a run is in progress. -/
def State.inRun (s : State) : Bool := s.phase == .cal || s.phase == .tx

/-- The sequencer can perform an operation: a run is in progress, and no wait hangs (43_run_control.md R123). -/
def State.mayAct (s : State) : Bool := s.inRun && s.waiting.isNone

/-- The Calibrator can perform an operation. -/
def State.mayCalibrate (s : State) : Bool := s.phase == .cal && s.waiting.isNone

/-- `BUSY <- 1; PHASE <- CAL` (R119). -/
def State.enterCal (s : State) : State := { s with busy := true, phase := .cal }

/-- `TUF <- 1; PHASE <- TX; REP <- 0` (R119, R127). -/
def State.enterTx (s : State) : State := { s with busy := true, tuf := true, phase := .tx, rep := 0 }

/-- `PHASE <- DONE; BUSY <- 0; DONE <- 1` (R119). -/
def State.enterDone (s : State) : State := { s with phase := .done, busy := false, doneFlag := true }

/-- `CAUSE <- cause; PHASE <- FATAL; BUSY <- 0; FATAL <- 1` (60_exceptions.md R133). -/
def State.enterFatal (c : Cause) (s : State) : State :=
  { s with cause := causeCode c, phase := .fatal, busy := false, fatalFlag := true }

/-- The rule of `CANCELLED` (41_phase_transmitter.md R93): the flag was read true in phase TX with repetitions left over. -/
def State.noteCancel (c : Bool) (s : State) : State :=
  { s with cancelled := s.cancelled || (c && (s.phase == .tx && s.rep.ult s.p.rpt)) }

/-- The outputs of the core (43_run_control.md R117). DESIGN CHOICE: `wait_us` shows 0 while no wait is requested, where the
spec gives the port no value (log 21). -/
def State.ports (s : State) : Ports where
  line := s.line
  tu := s.tu
  rep := s.rep
  busy := s.busy
  done := s.doneFlag
  fatal := s.fatalFlag
  cancelled := s.cancelled
  cause := s.cause
  waitReq := s.waiting.isSome
  waitUs := s.waiting.getD 0

end Sys2Proof.Machine
end

