-- ==== Sys2Proof/Machine/Operands.lean ====
section
/-! DEFINITION. The operand forms: the active parameters (10_state.md R30), host values cut to a register's width
(30_encoding.md R64), and the functions of the encoder on the active parameters (40_frame_encoder.md). -/

namespace Sys2Proof.Machine

/-- The calibration dummy (R30): all fields zero, sent once. -/
def calParams : Params := { tid := 0, chan := 0, mode := 0, str := 0, rpt := 1 }

/-- The active parameters `A` (R30). -/
def State.active (s : State) : Params :=
  match s.phase with
  | .cal => calParams
  | .idle | .tx | .done | .fatal => s.p

/-- `CHECKSUM(A)` (R71). -/
def Params.checksum (a : Params) : Byte := checksumOf a.tid a.chan a.mode a.str

/-- `PACK(A)` (R72). -/
def Params.pack (a : Params) : LogicalWord := packOf a.tid a.chan a.mode a.str

/-- `ENCODE(A)` (R83). -/
def Params.encode (a : Params) : List Level := encodeOf a.tid a.chan a.mode a.str

/-- The values a host offers, each cut to the width of its register (R64, R121). -/
def hostParams (tid chan mode str rpt : Nat) : Params where
  tid := BitVec.ofNat _ tid
  chan := BitVec.ofNat _ chan
  mode := BitVec.ofNat _ mode
  str := BitVec.ofNat _ str
  rpt := BitVec.ofNat _ rpt

/-- `meas = (elapsed div 176) div 1000` (42_calibrator.md R105). -/
def measOf (elapsed : Nanos) : Nat := elapsed.toNat / Config.calDivisorQp / 1000

/-- The quotient of the correction, on natural numbers (R106, R107). -/
def correction (tu : Micros) (meas : Nat) : Nat := Config.nominalQpUs * tu.toNat / meas

end Sys2Proof.Machine
end

