-- ==== Sys2Proof/Machine/Ops.lean ====
section
/-! DEFINITION. The named operations over the state that the meanings share: how an operation ends, the environment's
answers, the register writes, the primitives `Commit`, `Wait`, `ClockRead`, `CancelRead` (00_scope.md R11), and taking a
fault (60_exceptions.md R133). -/

namespace Sys2Proof.Machine

/-- How an operation ends: it completes with a result; it is cut, by a fault taken (41_phase_transmitter.md R92, R95) or by
a wait that never ends (43_run_control.md R123), and nothing that called the operation goes on; no rule applies; the model
offers no move. -/
inductive Res (α : Type) where
  | ok (a : α) (s : State)
  | cut (s : State)
  | stuck (f : Fault)
  | refused (r : Refusal)

/-- Sequencing (20_memory.md R50): the rest runs only if the operation completed. -/
def Res.andThen {α β : Type} (r : Res α) (k : α → State → Res β) : Res β :=
  match r with
  | .ok a s => k a s
  | .cut s => .cut s
  | .stuck f => .stuck f
  | .refused r => .refused r

/-- The outcome of an operation that is a whole instruction: a fault taken is a next state (R133), and so is a hang. -/
def Res.outcome {α : Type} (r : Res α) : Host.Outcome State Fault Refusal :=
  match r with
  | .ok _ s => .next s
  | .cut s => .next s
  | .stuck f => .fault f
  | .refused r => .refused r

/-- An operation that the sequencer position selects only under a condition (30_encoding.md R69; log 8). -/
def whenSelected (c : Bool) (o : Host.Outcome State Fault Refusal) : Host.Outcome State Fault Refusal :=
  if c then o else .refused .notSelected

/-! ### The environment's answers (10_state.md R37; log 3) -/

/-- The sink's next answer. -/
def Env.nextSink (e : Env) : Bool := e.sink.headD (Config.sinkAnswer e.draws)
/-- The cancellation flag at its next read. -/
def Env.nextCancel (e : Env) : Bool := e.cancel.headD (Config.cancelAnswer e.draws)
/-- How the next wait ends. -/
def Env.nextWait (e : Env) : WaitAnswer := e.waits.headD (Config.waitAnswer e.draws)
/-- The time that passes before the next clock read. -/
def Env.nextDrift (e : Env) : Nat := e.drift.headD (Config.clockDrift e.draws)

/-- A draw from a list of answers: only a free draw advances the counter. -/
def drawsAfter {α : Type} (l : List α) (n : Nat) : Nat := if l.isEmpty then n + 1 else n

def Env.tookSink (e : Env) : Env := { e with sink := e.sink.tail, draws := drawsAfter e.sink e.draws }
def Env.tookCancel (e : Env) : Env := { e with cancel := e.cancel.tail, draws := drawsAfter e.cancel e.draws }
def Env.tookWait (e : Env) : Env := { e with waits := e.waits.tail, draws := drawsAfter e.waits e.draws }
def Env.tookDrift (e : Env) : Env := { e with drift := e.drift.tail, draws := drawsAfter e.drift e.draws }

/-- Time passes (20_memory.md R46). -/
def Env.advance (d : Nat) (e : Env) : Env := { e with now := e.now + d }

/-- The line now physically shows `l`. -/
def Env.setPin (l : Level) (e : Env) : Env := { e with pin := l }

/-- The physical level of the line is any value (93_implementation_defined.md U8; log 16). -/
def Env.freePin (e : Env) : Env := { e with pin := Config.pinLevel e.draws, draws := e.draws + 1 }

/-- What the clock shows at a time (D9: no wrap; past 2^`CLK_W` a free value, log 4). -/
def clockValue (now : Nat) : Nanos := if now < 2 ^ Config.clkW then BitVec.ofNat _ now else Config.clockPast now

/-! ### Register writes -/

/-- An event is recorded (00_scope.md R13). -/
def State.record (e : Event) (s : State) : State := { s with hist := e :: s.hist }

/-- The environment moves on. -/
def State.mapEnv (f : Env → Env) (s : State) : State := { s with env := f s.env }

/-- A result is presented (log 1). -/
def State.present (v : Value) (s : State) : State := { s with out := v }

/-- The one way `TU` is written: 10_state.md R32, "while `TUF = 1` no operation writes `TU`" (log 15). -/
def State.writeTU (v : Micros) (s : State) : State := { s with tu := if s.tuf then s.tu else v }

/-- The line register and the physical line take a committed level (R34). -/
def State.driveLine (l : Level) (s : State) : State := { s with line := l, env := s.env.setPin l }

/-- The wait of `tu` microseconds was requested and never ends (43_run_control.md R123; log 5). -/
def State.hang (tu : Micros) (s : State) : State := { s with waiting := some tu }

def State.setIter (n : BitVec 4) (s : State) : State := { s with iter := n }
def State.setRep (n : RepeatCount) (s : State) : State := { s with rep := n }
def State.setQidx (n : BitVec 8) (s : State) : State := { s with qidx := n }
def State.setT0 (t : Nanos) (s : State) : State := { s with t0 := t }

/-- The parameter registers and `OVR` are loaded, all six at once, and marked as written (43_run_control.md R121). -/
def State.loadParams (p : Params) (ovr : Micros) (s : State) : State := { s with p := p, ovr := ovr, written := true }

/-! ### Taking a fault -/

/-- `abort(cause)` (60_exceptions.md R133): the one operation by which every fault is taken. There is no return from it
(R139): only a reset leaves `FATAL`. -/
def State.takeFault (c : Cause) (s : State) : State := (s.record (.fault c)).enterFatal c

/-! ### The primitives of 00_scope.md R11 -/

/-- `Commit(l)` (41_phase_transmitter.md R88). With `CAL_ON_LINE` false the calibration frames would not reach the line
(decision D16; log 18). -/
def commitLevel (l : Level) (s : State) : Res Unit :=
  if s.phase == .cal && !Config.calOnLine then .ok () s
  else if s.env.nextSink then .ok () (((s.mapEnv Env.tookSink).driveLine l).record (.commit l))
  else .cut (((s.mapEnv Env.tookSink).mapEnv Env.freePin).takeFault .sinkFault)

/-- `Wait(tu)` (R89): at least `1000 × tu` nanoseconds pass. A wait that never ends is a hang (43_run_control.md R123): the
core stays in it, with everything as it was when the wait was requested. DESIGN CHOICE: it is an answer of the environment
also where `OVH_MAX_NS` bounds the excess, on which the spec is silent (log 24). -/
def waitFor (tu : Micros) (s : State) : Res Unit :=
  match s.env.nextWait with
  | .ends x =>
    .ok () (((s.mapEnv Env.tookWait).mapEnv (Env.advance (1000 * tu.toNat + Config.excess x))).record
      (.wait tu (1000 * tu.toNat + Config.excess x)))
  | .never => .cut ((s.mapEnv Env.tookWait).hang tu)

/-- The value the next `ClockRead()` returns (20_memory.md R46). -/
def State.clockNext (s : State) : Nanos := clockValue (s.env.now + s.env.nextDrift)

/-- `ClockRead()`: the state after it. -/
def State.clockRead (s : State) : State :=
  ((s.mapEnv (Env.advance s.env.nextDrift)).mapEnv Env.tookDrift).record (.clock s.clockNext)

/-- `CancelRead()` (20_memory.md R47): the state after it. -/
def State.cancelRead (s : State) : State := (s.mapEnv Env.tookCancel).record (.cancel s.env.nextCancel)

end Sys2Proof.Machine
end

