-- ==== Sys2Proof/Machine/Encoder.lean ====
section
/-! DEFINITION. The FrameEncoder's rows (30_encoding.md, 40_frame_encoder.md): symbols, the logical word, tokens, field
values, CHECKSUM, PACK, SLOT, ENCODE. R70: no register, no flag, no event, no fault; only a result. -/

namespace Sys2Proof.Machine

/-- The outcome of a pure operation: its result is presented and nothing else changes (R70). -/
def presents (v : Value) (s : State) : Host.Outcome State Fault Refusal := .next (s.present v)

/-- A field value and the four symbols it is sent as, verbatim (30_encoding.md R61, R62, R66). -/
def fieldValueOf (v : Nibble) : Value := .fieldValue v (expand v)

/-- `PRE` (R73). -/
def execPre (s : State) : Host.Outcome State Fault Refusal := presents (.levels preLevels) s
/-- `BIT1` (R74). -/
def execBit1 (s : State) : Host.Outcome State Fault Refusal := presents (.levels (sym true)) s
/-- `BIT0` (R75). -/
def execBit0 (s : State) : Host.Outcome State Fault Refusal := presents (.levels (sym false)) s
/-- `FRAME` (R57, R58): the 176 levels of a logical word. -/
def execFrame (w : LogicalWord) (s : State) : Host.Outcome State Fault Refusal := presents (.levels (wordLevels w)) s
/-- `TID` (R76). -/
def execTid (v : TidWord) (s : State) : Host.Outcome State Fault Refusal := presents (.levels (expand v)) s
/-- `CHAN` (R77). -/
def execChan (v : Nibble) (s : State) : Host.Outcome State Fault Refusal := presents (.levels (expand v)) s
/-- `MODE` (R78). -/
def execMode (v : Nibble) (s : State) : Host.Outcome State Fault Refusal := presents (.levels (expand v)) s
/-- `STR` (R79). -/
def execStr (v : Byte) (s : State) : Host.Outcome State Fault Refusal := presents (.levels (expand v)) s
/-- `CSUM` (R80). -/
def execCsum (v : Byte) (s : State) : Host.Outcome State Fault Refusal := presents (.levels (expand v)) s
/-- `POST` (R81). -/
def execPost (s : State) : Host.Outcome State Fault Refusal := presents (.levels postLevels) s

/-- `CHAN.Channel1` (R61). -/
def execChanChannel1 (s : State) : Host.Outcome State Fault Refusal := presents (fieldValueOf 0) s
/-- `CHAN.Channel2` (R61). -/
def execChanChannel2 (s : State) : Host.Outcome State Fault Refusal := presents (fieldValueOf 1) s
/-- `CHAN.Channel3` (R61). -/
def execChanChannel3 (s : State) : Host.Outcome State Fault Refusal := presents (fieldValueOf 2) s
/-- `CHAN.reserved3` (R61): reserved, encoded verbatim. -/
def execChanReserved3 (s : State) : Host.Outcome State Fault Refusal := presents (fieldValueOf 3) s
/-- `MODE.CalDummy` (R62). -/
def execModeCalDummy (s : State) : Host.Outcome State Fault Refusal := presents (fieldValueOf 0) s
/-- `MODE.Shock` (R62). -/
def execModeShock (s : State) : Host.Outcome State Fault Refusal := presents (fieldValueOf 1) s
/-- `MODE.Vibrate` (R62). -/
def execModeVibrate (s : State) : Host.Outcome State Fault Refusal := presents (fieldValueOf 2) s
/-- `MODE.Beep` (R62). -/
def execModeBeep (s : State) : Host.Outcome State Fault Refusal := presents (fieldValueOf 3) s

/-- `CHECKSUM` (R71) of the active parameters. -/
def execChecksum (s : State) : Host.Outcome State Fault Refusal := presents (.checksum s.active.checksum) s
/-- `PACK` (R72) of the active parameters. -/
def execPack (s : State) : Host.Outcome State Fault Refusal := presents (.word s.active.pack) s
/-- `SLOT` (R82): a slot index above 175 is refused (R41). -/
def execSlot (w : LogicalWord) (q : Byte) (s : State) : Host.Outcome State Fault Refusal :=
  match frameLevel w q.toNat with
  | some l => presents (.level l) s
  | none => .refused .slotOutOfRange
/-- `ENCODE` (R83) of the active parameters. -/
def execEncode (s : State) : Host.Outcome State Fault Refusal := presents (.levels s.active.encode) s

end Sys2Proof.Machine
end

