-- ==== Sys2Proof/Machine/Transmitter.lean ====
section
/-! DEFINITION. The PhaseTransmitter (41_phase_transmitter.md): Commit, Wait, QSTEP, TRANSMIT, SEND and the cancellation
check. -/

namespace Sys2Proof.Machine

/-- `QSTEP(W)` (R91): the commit first, then the wait. -/
def quarterStep (w : LogicalWord) (s : State) : Res Unit :=
  match frameLevel w s.qidx.toNat with
  | some l => (commitLevel l s).andThen fun _ s => waitFor s.tu s
  | none => .stuck .qidxOutOfRange

/-- The loop of `TRANSMIT` (R90) with `n` slots left after this one. -/
def slotsFrom (w : LogicalWord) : Nat → State → Res Unit
  | 0, s => (quarterStep w s).andThen fun _ s => .ok () (s.setQidx 0)
  | n + 1, s => (quarterStep w s).andThen fun _ s => slotsFrom w n (s.setQidx (s.qidx + 1))

/-- `TRANSMIT(W)` (R90): 176 slots from slot 0. -/
def transmitWord (w : LogicalWord) (s : State) : Res Unit := slotsFrom w 175 (s.setQidx 0)

/-- The end of a repetition (R92, R93): `REP <- REP + 1`, one read of the flag, and `CANCELLED`. -/
def endRepetition (s : State) : State :=
  let s1 := s.setRep (s.rep + 1)
  (s1.cancelRead).noteCancel s1.env.nextCancel

/-- The flag that the read at the end of a repetition returns. -/
def flagAtEnd (s : State) : Bool := s.env.nextCancel

/-- The loop of `SEND` (R92) with `n` repetitions left. -/
def repetitions : Nat → State → Res Unit
  | 0, s => .ok () s
  | n + 1, s =>
    (transmitWord s.active.pack s).andThen fun _ s =>
      if flagAtEnd s then .ok () (endRepetition s) else repetitions n (endRepetition s)

/-- `SEND(A)` (R92). -/
def sendActive (s : State) : Res Unit := repetitions s.active.rpt.toNat (s.setRep 0)

/-- `Commit` (R88). -/
def execCommit (l : Level) (s : State) : Host.Outcome State Fault Refusal :=
  whenSelected s.mayAct (commitLevel l s).outcome

/-- `Wait` (R89). -/
def execWait (tu : Micros) (s : State) : Host.Outcome State Fault Refusal :=
  whenSelected s.mayAct (waitFor tu s).outcome

/-- `QSTEP` (R91). -/
def execQstep (w : LogicalWord) (s : State) : Host.Outcome State Fault Refusal :=
  whenSelected s.mayAct (quarterStep w s).outcome

/-- `TRANSMIT` (R90). -/
def execTransmit (w : LogicalWord) (s : State) : Host.Outcome State Fault Refusal :=
  whenSelected s.mayAct (transmitWord w s).outcome

/-- `SEND` (R92). -/
def execSend (s : State) : Host.Outcome State Fault Refusal :=
  whenSelected s.mayAct (sendActive s).outcome

end Sys2Proof.Machine
end

