-- ==== Sys2Proof/Machine/Calibrator.lean ====
section
/-! DEFINITION. The Calibrator (42_calibrator.md): CAL_SEED, CAL_MEASURE, CAL_CORRECT, CALIBRATE and the CAL frame. -/

namespace Sys2Proof.Machine

/-- `CAL_SEED` (R104). -/
def seed (s : State) : State := (s.writeTU (BitVec.ofNat _ Config.seedQpUs)).setIter 0

/-- The first half of `CAL_MEASURE` (R105): `T0 <- ClockRead()`. -/
def openMeasure (s : State) : State := s.clockRead.setT0 s.clockNext

/-- The second half of `CAL_MEASURE` (R105): the second timestamp is used at once and not stored. -/
def closeMeasure (s : State) : Res Nat := .ok (measOf (s.clockNext - s.t0)) s.clockRead

/-- `CAL_MEASURE` (R105): both timestamps are taken outside `SEND` (decision D25). -/
def measure (s : State) : Res Nat := (sendActive (openMeasure s)).andThen fun _ s => closeMeasure s

/-- `CAL_CORRECT(meas)` (R107): the zero test comes before the overflow test (60_exceptions.md R138). -/
def correct (meas : Nat) (s : State) : Res Unit :=
  if meas = 0 then .cut (s.takeFault .calDivideByZero)
  else if 2 ^ Config.tuW ≤ correction s.tu meas then .cut (s.takeFault .calOverflow)
  else .ok () (s.writeTU (BitVec.ofNat _ (correction s.tu meas)))

/-- One iteration of `CALIBRATE` (R108): measure, correct, `ITER <- ITER + 1`. -/
def iteration (s : State) : Res Unit :=
  (measure s).andThen fun meas s => (correct meas s).andThen fun _ s => .ok () (s.setIter (s.iter + 1))

/-- The loop of `CALIBRATE` with `n` iterations left. -/
def iterations : Nat → State → Res Unit
  | 0, s => .ok () s
  | n + 1, s => (iteration s).andThen fun _ s => iterations n s

/-- `CALIBRATE` (R108): the seed, then ten iterations. -/
def calibrateAll (s : State) : Res Unit := iterations Config.calIters (seed s)

/-- `CAL_SEED` (R104). -/
def execCalSeed (s : State) : Host.Outcome State Fault Refusal :=
  whenSelected s.mayCalibrate (.next (seed s))

/-- `CAL_MEASURE` (R105): `meas` is presented (log 1). -/
def execCalMeasure (s : State) : Host.Outcome State Fault Refusal :=
  whenSelected s.mayCalibrate
    ((measure s).andThen fun meas s => .ok () (s.present (.measured meas))).outcome

/-- `CAL_CORRECT` (R107). -/
def execCalCorrect (meas : Nat) (s : State) : Host.Outcome State Fault Refusal :=
  whenSelected s.mayCalibrate (correct meas s).outcome

/-- `CALIBRATE` (R108). -/
def execCalibrate (s : State) : Host.Outcome State Fault Refusal :=
  whenSelected s.mayCalibrate (calibrateAll s).outcome

/-- `CALFRAME` (30_encoding.md R69): `SEND` applied to the calibration dummy, which `A` is in phase `CAL` (10_state.md
R30). -/
def execCalframe (s : State) : Host.Outcome State Fault Refusal :=
  whenSelected s.mayCalibrate (sendActive s).outcome

end Sys2Proof.Machine
end

