-- ==== Sys2Proof/Machine/RunControl.lean ====
section
/-! DEFINITION. Run control (43_run_control.md, 60_exceptions.md, 70_reset_and_hazards.md): RUN in its two forms, the host
actions P_WRITE, START, RESET, and ABORT. -/

namespace Sys2Proof.Machine

/-- The start of a run without an override (R119, R127): `BUSY <- 1; PHASE <- CAL; CAL_SEED`. -/
def beginCal (s : State) : State := seed s.enterCal

/-- The start of a run with an override (R119, R127): `BUSY <- 1; TU <- OVR; TUF <- 1; PHASE <- TX; REP <- 0`. -/
def beginOvr (s : State) : State := (s.writeTU s.ovr).enterTx

/-- A run is accepted only in `IDLE` with the parameters written (R118). -/
def State.mayStart (s : State) : Bool := s.phase == .idle && s.written

/-- The end of a run (R119). -/
def sendAndFinish (s : State) : Res Unit := (sendActive s).andThen fun _ s => .ok () s.enterDone

/-- `RUN` with `OVR = 0` (R119): calibrate, freeze, send. -/
def runWithCal (s : State) : Res Unit :=
  (iterations Config.calIters (beginCal s)).andThen fun _ s => sendAndFinish s.enterTx

/-- `RUN` with `OVR != 0` (R119, 42_calibrator.md R110): no calibration. -/
def runWithOvr (s : State) : Res Unit := sendAndFinish (beginOvr s)

/-- `RUN.cal` (R119). -/
def execRunCal (s : State) : Host.Outcome State Fault Refusal :=
  whenSelected (s.mayStart && s.ovr == 0) (runWithCal s).outcome

/-- `RUN.ovr` (R119). -/
def execRunOvr (s : State) : Host.Outcome State Fault Refusal :=
  whenSelected (s.mayStart && s.ovr != 0) (runWithOvr s).outcome

/-- `P_WRITE` (R121): effective in `IDLE`, ignored in every other phase. -/
def execPWrite (tid chan mode str rpt ovr : Nat) (s : State) : Host.Outcome State Fault Refusal :=
  if s.phase == .idle then .next (s.loadParams (hostParams tid chan mode str rpt) (BitVec.ofNat _ ovr))
  else .next s

/-- `START` (R118, R127): begins the run that `OVR` selects; ignored outside `IDLE`, and without effect when the
parameters were never written (log 7). -/
def execStart (s : State) : Host.Outcome State Fault Refusal :=
  if s.mayStart then .next (if s.ovr = 0 then beginCal s else beginOvr s)
  else .next s

/-- The state after `reset` (70_reset_and_hazards.md R150, R151): every register at its reset value, nothing of the run
kept; the environment and the inputs still to come are not the core's to reset (10_state.md R39). -/
def resetFrom (s : State) : State := { State.reset with env := s.env.freePin, inputs := s.inputs }

/-- `RESET` (R150). -/
def execReset (s : State) : Host.Outcome State Fault Refusal := .next (resetFrom s)

/-- A fault can be raised only where its operation is performed: `SinkFault` in a run, the calibration faults in `CAL`
(60_exceptions.md R130, 43_run_control.md R119). -/
def State.mayRaise (c : Cause) (s : State) : Bool :=
  match c with
  | .sinkFault => s.mayAct
  | .calDivideByZero => s.mayCalibrate
  | .calOverflow => s.mayCalibrate

/-- `ABORT` (60_exceptions.md R133). -/
def execAbort (c : Cause) (s : State) : Host.Outcome State Fault Refusal :=
  whenSelected (s.mayRaise c) (.next (s.takeFault c))

end Sys2Proof.Machine
end

