-- ==== Sys2Proof/Machine/Dispatch.lean ====
section
/-! DEFINITION. One arm per operation: which meaning each constructor of Instr has. -/

namespace Sys2Proof.Machine

def exec (i : Instr) (s : State) : Host.Outcome State Fault Refusal :=
  match i with
  | .pre => Sys2Proof.Machine.execPre s
  | .bit1 => Sys2Proof.Machine.execBit1 s
  | .bit0 => Sys2Proof.Machine.execBit0 s
  | .frame w => Sys2Proof.Machine.execFrame w s
  | .tid v => Sys2Proof.Machine.execTid v s
  | .chan v => Sys2Proof.Machine.execChan v s
  | .mode v => Sys2Proof.Machine.execMode v s
  | .str v => Sys2Proof.Machine.execStr v s
  | .csum v => Sys2Proof.Machine.execCsum v s
  | .post => Sys2Proof.Machine.execPost s
  | .chanChannel1 => Sys2Proof.Machine.execChanChannel1 s
  | .chanChannel2 => Sys2Proof.Machine.execChanChannel2 s
  | .chanChannel3 => Sys2Proof.Machine.execChanChannel3 s
  | .chanReserved3 => Sys2Proof.Machine.execChanReserved3 s
  | .modeCalDummy => Sys2Proof.Machine.execModeCalDummy s
  | .modeShock => Sys2Proof.Machine.execModeShock s
  | .modeVibrate => Sys2Proof.Machine.execModeVibrate s
  | .modeBeep => Sys2Proof.Machine.execModeBeep s
  | .checksum => Sys2Proof.Machine.execChecksum s
  | .pack => Sys2Proof.Machine.execPack s
  | .slot w q => Sys2Proof.Machine.execSlot w q s
  | .encode => Sys2Proof.Machine.execEncode s
  | .commit l => Sys2Proof.Machine.execCommit l s
  | .wait tu => Sys2Proof.Machine.execWait tu s
  | .qstep w => Sys2Proof.Machine.execQstep w s
  | .transmit w => Sys2Proof.Machine.execTransmit w s
  | .send => Sys2Proof.Machine.execSend s
  | .calSeed => Sys2Proof.Machine.execCalSeed s
  | .calMeasure => Sys2Proof.Machine.execCalMeasure s
  | .calCorrect meas => Sys2Proof.Machine.execCalCorrect meas s
  | .calibrate => Sys2Proof.Machine.execCalibrate s
  | .runCal => Sys2Proof.Machine.execRunCal s
  | .runOvr => Sys2Proof.Machine.execRunOvr s
  | .calframe => Sys2Proof.Machine.execCalframe s
  | .pWrite tid chan mode str rpt ovr => Sys2Proof.Machine.execPWrite tid chan mode str rpt ovr s
  | .start => Sys2Proof.Machine.execStart s
  | .reset => Sys2Proof.Machine.execReset s
  | .abort c => Sys2Proof.Machine.execAbort c s

end Sys2Proof.Machine
end

