-- ==== Sys2Proof/Machine/Fetch.lean ====
section
/-! DEFINITION. What a step finds at the core's inputs (43_run_control.md R117; log 9): the analogue of fetching an
instruction. -/

namespace Sys2Proof.Machine

/-- The operation that an input stands for, if any; why it stands for none otherwise. -/
def HostInput.operation : HostInput → Except Refusal (Option Instr)
  | .quiet => .ok none
  | .word sp n =>
    match decode sp n with
    | .ok i => .ok (some i)
    | .error e => .error (.undecoded e)
  | .pWrite tid chan mode str rpt ovr => .ok (some (.pWrite tid chan mode str rpt ovr))
  | .start => .ok (some .start)
  | .reset => .ok (some .reset)

/-- The input of this step: nothing when no input is left. -/
def State.input (s : State) : HostInput := s.inputs.headD .quiet

/-- The state with the inputs moved on by one step. -/
def State.moveOn (s : State) : State := { s with inputs := s.inputs.tail }

/-- The state with one more input in front. -/
def State.withInput (s : State) (x : HostInput) : State := { s with inputs := x :: s.inputs }

end Sys2Proof.Machine
end

