-- ==== Sys2Proof/Machine/Sequencer.lean ====
section
/-! DEFINITION. The sequencer: what one step does when no operation stands at the inputs (10_state.md R27, 43_run_control.md
R119, R127). Its position is (PHASE, ITER, REP, QIDX), and a step in `CAL` or `TX` is one slot of the frame in progress
with the bookkeeping that rules R90, R92, R105 and R108 put before and after it (log 10). -/

namespace Sys2Proof.Machine

/-- The row that the sequencer position selects (opcode_table.json: "PHASE in (CAL, TX), once per slot"); none when the
stage has nothing left to send, and none in a hang. -/
def State.selected (s : State) : Option Instr :=
  match s.phase with
  | .cal => if s.waiting.isSome || decide (Config.calIters ≤ s.iter.toNat) then none else some (.qstep s.active.pack)
  | .tx => if s.waiting.isSome || (s.cancelled || s.p.rpt.ule s.rep) then none else some (.qstep s.active.pack)
  | .idle | .done | .fatal => none

/-- The stage ends: from `CAL` to `TX`, from `TX` to `DONE` (R127); the core waits in the other phases, and stays where it is
in a hang (R123). -/
def endStage (s : State) : State :=
  if s.waiting.isSome then s
  else match s.phase with
  | .cal => s.enterTx
  | .tx => s.enterDone
  | .idle | .done | .fatal => s

/-- Before slot 0 of a calibration frame: the first timestamp, and `SEND` sets `REP` to 0 (R105, R92). -/
def beforeSlot (s : State) : State :=
  if s.phase == .cal && s.qidx == 0 then (openMeasure s).setRep 0 else s

/-- After the last slot of a calibration frame (R105, R107, R108, R127). -/
def afterCalFrame (s : State) : Res Unit :=
  (closeMeasure (endRepetition s)).andThen fun meas s =>
    (correct meas s).andThen fun _ s =>
      let s := s.setIter (s.iter + 1)
      .ok () (if Config.calIters ≤ s.iter.toNat then s.enterTx else s)

/-- After the last slot of a real frame (R92, R93, R127). -/
def afterTxFrame (s : State) : Res Unit :=
  let t := endRepetition s
  .ok () (if flagAtEnd s || t.p.rpt.ule t.rep then t.enterDone else t)

/-- After a slot: the next slot, or the end of the frame (R90). -/
def afterSlot (s : State) : Res Unit :=
  if s.qidx.toNat < 175 then .ok () (s.setQidx (s.qidx + 1))
  else
    match s.phase with
    | .cal => afterCalFrame (s.setQidx 0)
    | .tx => afterTxFrame (s.setQidx 0)
    | .idle | .done | .fatal => .ok () (s.setQidx 0)

/-- One step of the sequencer. -/
def tick (s : State) : Host.Outcome State Fault Refusal :=
  match s.selected with
  | some _ => ((quarterStep s.active.pack (beforeSlot s)).andThen fun _ s => afterSlot s).outcome
  | none => .next (endStage s)

end Sys2Proof.Machine
end

