-- ==== Sys2Proof/Machine/Step.lean ====
section
/-! DEFINITION. One step of the machine: what stands at the inputs is performed (a host action, or a pattern's row of the
FrameEncoder, which changes no register); with nothing there, the core sequencer goes on (00_scope.md R7; log 9). -/

namespace Sys2Proof.Machine

/-- One step. -/
def step (s : State) : Host.Outcome State Fault Refusal :=
  match s.input.operation with
  | .ok (some i) => exec i s.moveOn
  | .ok none => tick s.moveOn
  | .error r => .refused r

/-- The state with a table word of `nbits` bits at its inputs, so that the next step reads and performs it (log 9,
log 13). -/
def State.withFetchWord (s : State) (nbits w : Nat) : State := s.withInput (.word (tableSpace nbits w) w)

end Sys2Proof.Machine
end

