-- ==== Sys2Proof/Safety.lean ====
section
/-! DEFINITION. What claims about the CollarTX core are stated in: the invariant of the machine, the host's actions and
duties, the frames and events of a run, the correction loop under a constant overhead. -/

namespace Sys2Proof.Machine

/-- What every step keeps (10_state.md R28, R29, R32, R35; 43_run_control.md R118, R127). -/
structure Inv (s : State) : Prop where
  /-- `ITER` is in 0 to 10. -/
  iter_le : s.iter.toNat ≤ 10
  /-- `QIDX` is in 0 to 175. -/
  qidx_le : s.qidx.toNat ≤ 175
  /-- `BUSY` is 1 exactly while `PHASE` is `CAL` or `TX`. -/
  busy_eq : s.busy = s.inRun
  /-- `DONE` is 1 exactly while `PHASE = DONE`. -/
  done_eq : s.doneFlag = (s.phase == .done)
  /-- `FATAL` is 1 exactly while `PHASE = FATAL`. -/
  fatal_eq : s.fatalFlag = (s.phase == .fatal)
  /-- `CAUSE` names a fault exactly in `FATAL`. -/
  cause_iff : s.cause = 0 ↔ s.phase ≠ .fatal
  /-- Nothing of a run exists in `IDLE`. -/
  idle_fresh : s.phase = .idle → s.iter = 0 ∧ s.rep = 0 ∧ s.qidx = 0 ∧ s.tu = 0 ∧ s.line = Config.lineReset
  /-- `TU` is not frozen before the real frames. -/
  unfrozen : s.phase = .idle ∨ s.phase = .cal → s.tuf = false
  /-- `TU` is frozen while the real frames are sent and after them. -/
  frozen : s.phase = .tx ∨ s.phase = .done → s.tuf = true
  /-- A run began with written parameters. -/
  started_written : s.phase ≠ .idle → s.written = true
  /-- `REP` counts repetitions of the current `SEND`. -/
  rep_le_cal : s.phase = .cal → s.rep ≤ 1
  rep_le_tx : s.phase = .tx ∨ s.phase = .done → s.rep ≤ s.p.rpt
  /-- Inside a calibration frame no repetition is finished and an iteration is in progress. -/
  cal_slot : s.phase = .cal → s.qidx ≠ 0 → s.rep = 0 ∧ s.iter.toNat < 10
  /-- Inside a real frame a repetition is in progress and no cancellation was read. -/
  tx_slot : s.phase = .tx → s.qidx ≠ 0 → s.rep < s.p.rpt ∧ s.cancelled = false
  /-- A run that reached `DONE` stands between frames. -/
  done_slot : s.phase = .done → s.qidx = 0
  /-- `CANCELLED` is set in phase `TX` only. -/
  cancelled_late : s.phase = .idle ∨ s.phase = .cal → s.cancelled = false
  /-- A wait that hangs belongs to a run: `BUSY` stays 1 until reset (43_run_control.md R123, R127). -/
  hang_in_run : s.waiting ≠ none → s.inRun = true

/-- The transitions of the phase machine other than reset (43_run_control.md R127). -/
def phaseStep : Phase → Phase → Bool
  | .idle, .idle => true
  | .idle, .cal => true
  | .idle, .tx => true
  | .cal, .cal => true
  | .cal, .tx => true
  | .cal, .fatal => true
  | .tx, .tx => true
  | .tx, .done => true
  | .tx, .fatal => true
  | .done, .done => true
  | .fatal, .fatal => true
  | .idle, .done | .idle, .fatal => false
  | .cal, .idle | .cal, .done => false
  | .tx, .idle | .tx, .cal => false
  | .done, .idle | .done, .cal | .done, .tx | .done, .fatal => false
  | .fatal, .idle | .fatal, .cal | .fatal, .tx | .fatal, .done => false

/-- The host's duty of 70_reset_and_hazards.md R157: only validated parameters. No rule of the core depends on it. -/
def validParams (p : Params) : Bool :=
  decide (p.chan.toNat ≤ 2) && decide (1 ≤ p.mode.toNat) && decide (p.mode.toNat ≤ 3)
    && decide (p.str.toNat ≤ 99) && decide (1 ≤ p.rpt.toNat)

/-- A run that has not failed. -/
def State.safe (s : State) : Bool := s.phase != .fatal

/-! ### Events -/

def Event.isCommit : Event → Bool
  | .commit _ => true
  | .wait _ _ | .clock _ | .cancel _ | .fault _ => false

def Event.isCancel : Event → Bool
  | .cancel _ => true
  | .commit _ | .wait _ _ | .clock _ | .fault _ => false

def Event.isClock : Event → Bool
  | .clock _ => true
  | .commit _ | .wait _ _ | .cancel _ | .fault _ => false

/-- The line trace (00_scope.md R13), in time order. -/
def State.lineTrace (s : State) : List Event :=
  s.hist.reverse.filter fun e => match e with
    | .commit _ => true
    | .wait _ _ => true
    | .clock _ | .cancel _ | .fault _ => false

/-- How many levels have been committed in this run. -/
def State.commits (s : State) : Nat := s.hist.countP Event.isCommit
/-- How often the cancellation flag has been read in this run. -/
def State.flagReads (s : State) : Nat := s.hist.countP Event.isCancel
/-- How often the clock has been read in this run. -/
def State.clockReads (s : State) : Nat := s.hist.countP Event.isClock

/-- The events of the slots of a frame, in time order, from slot `q` on, for the excess of each wait
(41_phase_transmitter.md R90, R96). -/
def slotEvents (w : LogicalWord) (tu : Micros) : Nat → List Nat → List Event
  | _, [] => []
  | q, x :: xs => .commit (levelAt w q) :: .wait tu (1000 * tu.toNat + x) :: slotEvents w tu (q + 1) xs

/-- The events of a whole frame. -/
def frameEvents (w : LogicalWord) (tu : Micros) (xs : List Nat) : List Event := slotEvents w tu 0 xs

/-- The events of the repetitions of a `SEND`: each a frame and the flag read after it (R92, R96). -/
def sendEvents (w : LogicalWord) (tu : Micros) : List (List Nat × Bool) → List Event
  | [] => []
  | r :: rs => frameEvents w tu r.1 ++ .cancel r.2 :: sendEvents w tu rs

/-- The time a list of waits takes when each was asked for `tu` microseconds. -/
def waitsTime (tu : Micros) (xs : List Nat) : Nat := (xs.map fun x => 1000 * tu.toNat + x).sum

/-- The number of changes between consecutive levels (30_encoding.md R55). -/
def levelChanges : List Level → Nat
  | [] => 0
  | [_] => 0
  | a :: b :: rest => (if a = b then 0 else 1) + levelChanges (b :: rest)

/-- One correction when every slot lasts `1000 × TU + x` ns (42_calibrator.md R111). -/
def steadyCorrection (x tu : Nat) : Nat := 250 * tu / (tu + x / 1000)

/-- The events of calibration iterations in which every slot lasts `1000 × TU + x` ns and no time passes elsewhere, one
iteration for each answer of the flag, from `now` on and from `TU = tu`: the first timestamp, the CAL frame, the flag's
read, the second timestamp (42_calibrator.md R105, R108). -/
def calEvents (x : Nat) : Nat → Nat → List Bool → List Event
  | _, _, [] => []
  | now, tu, c :: cs =>
    .clock (BitVec.ofNat _ now) :: (frameEvents 0 (BitVec.ofNat _ tu) (List.replicate 176 x)
      ++ .cancel c :: .clock (BitVec.ofNat _ (now + 176 * (1000 * tu + x)))
      :: calEvents x (now + 176 * (1000 * tu + x)) (steadyCorrection x tu) cs)

/-- The slot committed before a wait that hangs. -/
def State.hungSlots (s : State) : Nat := if s.waiting.isSome then 1 else 0

/-- What the commits of a run say of the position (41_phase_transmitter.md R90, R92, R93): whole frames, and the slots of
the frame in progress, the slot of a wait that hangs among them. -/
def WholeFrames (s : State) : Prop :=
  match s.phase with
  | .idle => s.commits = 0
  | .cal => s.commits = 176 * s.iter.toNat + s.qidx.toNat + s.hungSlots
  | .tx => s.commits = 176 * (s.iter.toNat + s.rep.toNat) + s.qidx.toNat + s.hungSlots
  | .done => s.qidx = 0 ∧ s.commits = 176 * (s.iter.toNat + s.rep.toNat)
  | .fatal => True

/-- The line shows the slot before the position: low between frames (30_encoding.md R55), the last slot's level inside a
frame, and in a hang the slot of the wait (41_phase_transmitter.md R90, R91). -/
def LineAgrees (s : State) : Prop :=
  match s.phase with
  | .idle | .done => s.line = false
  | .cal | .tx =>
    s.line = if s.waiting.isSome then levelAt s.active.pack s.qidx.toNat
      else if s.qidx = 0 then false else levelAt s.active.pack (s.qidx.toNat - 1)
  | .fatal => True

end Sys2Proof.Machine
end

