-- ==== Sys2Proof/Certificates/Slice0/Obligations.lean ====
section
/-! DEFINITION. The statements about the CollarTX core that the provers settle. The core has no addressable memory
(20_memory.md R40): the frames below speak of every register, of the environment and of the event history. -/

open Sys2Proof Sys2Proof.Machine

/-! ### Patterns -/

/-- Patterns written out from 30_encoding.md R53, R54, R56, R57, R61, R62: the three symbols, a logical word
(95_test_vectors.md V1), a token of each width, the postfix, a named value of each enumeration. -/
def Obligations.DecodePublishedPatterns : Prop :=
  decode .symbol 0b11111100 = .ok .pre ∧ decode .symbol 0b1110 = .ok .bit1 ∧ decode .symbol 0b1000 = .ok .bit0
  ∧ decode .logicalWord 0b101101001001011100000011000000000100111000 = .ok (.frame 0x2D25C0C0138)
  ∧ decode .tidField 0b1011010010010111 = .ok (.tid 0xB497) ∧ decode .chanField 0b0010 = .ok (.chan 2)
  ∧ decode .modeField 0b0011 = .ok (.mode 3) ∧ decode .strField 0b00110010 = .ok (.str 50)
  ∧ decode .csumField 0b01001110 = .ok (.csum 0x4E) ∧ decode .postField 0b00 = .ok .post
  ∧ decode .chanValue 0b0001 = .ok .chanChannel2 ∧ decode .modeValue 0b0001 = .ok .modeShock

/-- Every row that has a pattern decodes back from it, with every operand at every value its encoding admits. -/
def Obligations.DecodeOfEncode : Prop :=
  ∀ (i : Instr) (sp : Space) (n : Nat), wellFormed i = true → encode i = some (sp, n) → decode sp n = .ok i

/-- The other direction: a pattern that decodes is the encoding of what it decodes to, which is well formed. A channel or
mode value without a name decodes to the token that sends it verbatim (30_encoding.md R66; log 13), whose own space is the
token's field. -/
def Obligations.EncodeOfDecode : Prop :=
  ∀ (sp : Space) (n : Nat) (i : Instr), decode sp n = .ok i → wellFormed i = true
    ∧ ((sp = .chanValue ∧ 4 ≤ n ∧ encode i = some (.chanField, n))
      ∨ (sp = .modeValue ∧ 4 ≤ n ∧ encode i = some (.modeField, n))
      ∨ (¬((sp = .chanValue ∨ sp = .modeValue) ∧ 4 ≤ n) ∧ encode i = some (sp, n)))

/-- What is no pattern of the table is rejected by name: any other level pattern, a word or a postfix that does not end in
00, a number with more bits than its space. No field value is rejected: a channel or mode value without a name is sent
verbatim as its token (30_encoding.md R66; log 13), and a word may carry any checksum (log 14). -/
def Obligations.NonRowsRejectedByName : Prop :=
  (∀ n, n < 256 → n ≠ 0xFC → n ≠ 0xE → n ≠ 0x8 → decode .symbol n = .error .noSymbol)
  ∧ (∀ w : LogicalWord, wordPost w ≠ 0 → decode .logicalWord w.toNat = .error .badPostfix)
  ∧ (∀ w : LogicalWord, wordPost w = 0 → decode .logicalWord w.toNat = .ok (.frame w))
  ∧ (∀ n, n < 4 → n ≠ 0 → decode .postField n = .error .badPostfix)
  ∧ (∀ n, 4 ≤ n → n < 16 → decode .chanValue n = .ok (.chan (BitVec.ofNat 4 n))
      ∧ decode .modeValue n = .ok (.mode (BitVec.ofNat 4 n)))
  ∧ (∀ (sp : Space) (n : Nat), 2 ^ sp.width ≤ n → decode sp n = .error .tooWide)

/-- A frame's levels give its logical word back, and only levels of a word with the postfix 00 are accepted
(30_encoding.md R60, "Conversely a receiver that samples slots `9 + 4b` or `10 + 4b` reads bit `b`"). -/
def Obligations.FrameReadBackFromLevels : Prop :=
  (∀ w : LogicalWord, wordPost w = 0 → decodeFrame (wordLevels w) = .ok w)
  ∧ (∀ (ls : List Level) (w : LogicalWord), decodeFrame ls = .ok w → ls = wordLevels w ∧ wordPost w = 0)

/-- The three symbols are told apart from the front of any level sequence (30_encoding.md R55 (c)), and so a whole frame is
read as PRE and the symbols of its 42 bits, most significant first, whatever follows it. -/
def Obligations.SymbolsReadOffTheFront : Prop :=
  (∀ rest : List Level,
    decodeSymbol (preLevels ++ rest) = .ok (.pre, rest)
    ∧ decodeSymbol (sym true ++ rest) = .ok (.bit1, rest)
    ∧ decodeSymbol (sym false ++ rest) = .ok (.bit0, rest))
  ∧ (∀ (w : LogicalWord) (rest : List Level),
    decodeSymbols 43 (wordLevels w ++ rest)
      = .ok (.pre :: (List.range 42).map (fun b => if w.getLsbD (41 - b) then Instr.bit1 else Instr.bit0), rest))

/-! ### The step -/

/-- A step performs what stands at its inputs: the row that a pattern decodes to, or a host action with the values offered.
Around exec the step only moves the inputs on. With nothing there the sequencer goes on. The input port is the model's
(log 9); no other operation can stand at it (00_scope.md R7: the core sequencer is "the only agent that executes
operations"). -/
def Obligations.StepPerformsInput : Prop :=
  ∀ s : State,
    (∀ (sp : Space) (n : Nat) (i : Instr), s.input = .word sp n → decode sp n = .ok i → step s = exec i s.moveOn)
    ∧ (∀ tid chan mode str rpt ovr : Nat, s.input = .pWrite tid chan mode str rpt ovr →
      step s = exec (.pWrite tid chan mode str rpt ovr) s.moveOn)
    ∧ (s.input = .start → step s = exec .start s.moveOn)
    ∧ (s.input = .reset → step s = exec .reset s.moveOn)
    ∧ (s.input = .quiet → step s = tick s.moveOn)

/-- A table word that the decoder reads is performed by the very next step, in the state it was given to (log 13). -/
def Obligations.TableWordIsPerformed : Prop :=
  ∀ (s : State) (nbits w : Nat) (i : Instr), decodeTableWord nbits w = some i →
    step (s.withFetchWord nbits w) = exec i s

/-- With nothing at the inputs, a step in `CAL` or `TX` inside a frame performs the row that the sequencer position
selects, QSTEP of the active parameters' word, and then `QIDX <- QIDX + 1` (41_phase_transmitter.md R90, R91); if the
commit fails or the wait never ends, QSTEP is the whole step. -/
def Obligations.SequencerPerformsQstep : Prop :=
  ∀ s : State, s.input = .quiet → s.selected = some (.qstep s.active.pack) → s.qidx ≠ 0 → s.qidx.toNat < 175 →
    (∀ t, exec (.qstep s.active.pack) s.moveOn = .next t → t.phase = s.phase → t.waiting = none →
      step s = .next (t.setQidx (t.qidx + 1)))
    ∧ (∀ t, exec (.qstep s.active.pack) s.moveOn = .next t → t.phase = .fatal ∨ t.waiting ≠ none → step s = .next t)

/-- With nothing at the inputs, the core waits in `IDLE`, `DONE` and `FATAL` (70_reset_and_hazards.md R150,
43_run_control.md R123): a step leaves every register and the history as they were. That it leaves the environment, its
time and its answers, as it was is the model's (log 25). -/
def Obligations.CoreWaitsOutsideARun : Prop :=
  ∀ s : State, s.input = .quiet → s.inRun = false → step s = .next s.moveOn

/-! ### FrameEncoder: each row completes in every state, presents its result and changes nothing else (R70) -/

/-- PRE, BIT1, BIT0 and POST present their fixed levels. -/
def Obligations.FixedSymbolRows : Prop :=
  ∀ s : State,
    exec .pre s = .next (s.present (.levels [true, true, true, true, true, true, false, false]))
    ∧ exec .bit1 s = .next (s.present (.levels [true, true, true, false]))
    ∧ exec .bit0 s = .next (s.present (.levels [true, false, false, false]))
    ∧ exec .post s = .next (s.present (.levels [true, false, false, false, true, false, false, false]))

/-- The tokens with a field expand it most significant bit first: of the field's `n` bits, bit `n-1-i` gives levels `4i`
to `4i+3`, which are `(H, v, v, L)`. That the row carries its field's value as an operand is the model's form (log 12). -/
def Obligations.TokenRowsExpandMsbFirst : Prop :=
  (∀ (v : TidWord) (s : State), ∃ ls, exec (.tid v) s = .next (s.present (.levels ls)) ∧ ls.length = 64
    ∧ ∀ i, i < 16 → ls[4 * i]? = some true ∧ ls[4 * i + 1]? = some (v.getLsbD (15 - i))
      ∧ ls[4 * i + 2]? = some (v.getLsbD (15 - i)) ∧ ls[4 * i + 3]? = some false)
  ∧ (∀ (i : Instr) (v : Nibble) (s : State), i = .chan v ∨ i = .mode v →
    ∃ ls, exec i s = .next (s.present (.levels ls)) ∧ ls.length = 16
    ∧ ∀ i, i < 4 → ls[4 * i]? = some true ∧ ls[4 * i + 1]? = some (v.getLsbD (3 - i))
      ∧ ls[4 * i + 2]? = some (v.getLsbD (3 - i)) ∧ ls[4 * i + 3]? = some false)
  ∧ (∀ (i : Instr) (v : Byte) (s : State), i = .str v ∨ i = .csum v →
    ∃ ls, exec i s = .next (s.present (.levels ls)) ∧ ls.length = 32
    ∧ ∀ i, i < 8 → ls[4 * i]? = some true ∧ ls[4 * i + 1]? = some (v.getLsbD (7 - i))
      ∧ ls[4 * i + 2]? = some (v.getLsbD (7 - i)) ∧ ls[4 * i + 3]? = some false)

/-- The named field values: `Channel1` = 0, `Channel2` = 1, `Channel3` = 2, 3 reserved; the calibration dummy 0, `Shock` =
1, `Vibrate` = 2, `Beep` = 3; each is sent verbatim, as the token row of its field sends it. -/
def Obligations.FieldValueRows : Prop :=
  ∀ (s : State) (i : Instr) (v : Nibble),
    (i, v) ∈ [(Instr.chanChannel1, 0#4), (.chanChannel2, 1#4), (.chanChannel3, 2#4), (.chanReserved3, 3#4),
      (.modeCalDummy, 0#4), (.modeShock, 1#4), (.modeVibrate, 2#4), (.modeBeep, 3#4)] →
    ∃ ls, exec i s = .next (s.present (.fieldValue v ls)) ∧ exec (.chan v) s = .next (s.present (.levels ls))
      ∧ exec (.mode v) s = .next (s.present (.levels ls))

/-- CHECKSUM: "(high byte of transmitterId + low byte of transmitterId + (channel<<4 | mode) + strength) mod 256" of the
active parameters. -/
def Obligations.ChecksumRow : Prop :=
  ∀ s : State, ∃ ck : Byte, exec .checksum s = .next (s.present (.checksum ck))
    ∧ ck.toNat = (s.active.tid.toNat / 256 + s.active.tid.toNat % 256
        + (16 * s.active.chan.toNat + s.active.mode.toNat) + s.active.str.toNat) % 256

/-- PACK: the fields of the active parameters stand at their places in the logical word, the checksum of R71 among them,
and the two last bits are 00. -/
def Obligations.PackRow : Prop :=
  ∀ s : State, ∃ (w : LogicalWord) (ck : Byte), exec .pack s = .next (s.present (.word w))
    ∧ exec .checksum s = .next (s.present (.checksum ck))
    ∧ w.extractLsb' 26 16 = s.active.tid ∧ w.extractLsb' 22 4 = s.active.chan ∧ w.extractLsb' 18 4 = s.active.mode
    ∧ w.extractLsb' 10 8 = s.active.str ∧ w.extractLsb' 2 8 = ck ∧ w.extractLsb' 0 2 = 0#2

/-- "two different parameter tuples always give different `W`" (40_frame_encoder.md R72), and so different frames; the
count of repetitions is no part of either (R70). -/
def Obligations.PackAndEncodeInjective : Prop :=
  ∀ a b : Params,
    (a.pack = b.pack ↔ a.tid = b.tid ∧ a.chan = b.chan ∧ a.mode = b.mode ∧ a.str = b.str)
    ∧ (a.encode = b.encode ↔ a.pack = b.pack)

/-- The checksum stated on the word itself (95_test_vectors.md V15 (i)): the words PACK gives are those with the postfix 00
and `W[9:2]` equal to the sum of their four bytes modulo 256. -/
def Obligations.ChecksumOnTheWord : Prop :=
  ∀ w : LogicalWord, (∃ a : Params, a.pack = w) ↔
    w.extractLsb' 0 2 = 0#2
    ∧ (w.extractLsb' 2 8).toNat = ((w.extractLsb' 34 8).toNat + (w.extractLsb' 26 8).toNat
        + (w.extractLsb' 18 8).toNat + (w.extractLsb' 10 8).toNat) % 256

/-- SLOT: the level of slot `q` in the closed form, for `q` from 0 to 175; above 175 the call is refused. -/
def Obligations.SlotRow : Prop :=
  ∀ (w : LogicalWord) (q : Byte) (s : State),
    (q.toNat < 6 → exec (.slot w q) s = .next (s.present (.level true)))
    ∧ (6 ≤ q.toNat → q.toNat < 8 → exec (.slot w q) s = .next (s.present (.level false)))
    ∧ (∀ b p, b ≤ 41 → p < 4 → q.toNat = 8 + 4 * b + p →
        exec (.slot w q) s = .next (s.present (.level
          (if p = 0 then true else if p = 3 then false else w.getLsbD (41 - b)))))
    ∧ (175 < q.toNat → exec (.slot w q) s = .refused .slotOutOfRange)

/-- ENCODE, the token view, and FrameLevel of PACK, the multiplexer view, are the same 176 levels (R83, R86). -/
def Obligations.EncodeRow : Prop :=
  ∀ s : State, ∃ (ls : List Level) (w : LogicalWord), exec .encode s = .next (s.present (.levels ls))
    ∧ exec .pack s = .next (s.present (.word w)) ∧ ls.length = 176
    ∧ ∀ q : Byte, q.toNat ≤ 175 → ∃ l, ls[q.toNat]? = some l ∧ exec (.slot w q) s = .next (s.present (.level l))

/-- FRAME: the 176 levels of a logical word, slot by slot as SLOT gives them. -/
def Obligations.FrameRow : Prop :=
  ∀ (w : LogicalWord) (s : State), ∃ ls, exec (.frame w) s = .next (s.present (.levels ls)) ∧ ls.length = 176
    ∧ ∀ q : Byte, q.toNat ≤ 175 → ∃ l, ls[q.toNat]? = some l ∧ exec (.slot w q) s = .next (s.present (.level l))

/-- The frame is the fixed sequence of tokens, always in this order (R57, R83): what ENCODE presents is what PRE, TID, CHAN,
MODE, STR, CSUM and POST present, one after the other, for the active parameters. -/
def Obligations.EncodeIsTheTokensInOrder : Prop :=
  ∀ (s : State) (ck : Byte), exec .checksum s = .next (s.present (.checksum ck)) →
    ∃ l1 l2 l3 l4 l5 l6 l7, exec .pre s = .next (s.present (.levels l1))
      ∧ exec (.tid s.active.tid) s = .next (s.present (.levels l2))
      ∧ exec (.chan s.active.chan) s = .next (s.present (.levels l3))
      ∧ exec (.mode s.active.mode) s = .next (s.present (.levels l4))
      ∧ exec (.str s.active.str) s = .next (s.present (.levels l5))
      ∧ exec (.csum ck) s = .next (s.present (.levels l6))
      ∧ exec .post s = .next (s.present (.levels l7))
      ∧ exec .encode s = .next (s.present (.levels (l1 ++ l2 ++ l3 ++ l4 ++ l5 ++ l6 ++ l7)))

/-- 30_encoding.md R55 (b), (d): 85 level changes inside a frame whatever it carries, `48 + 2 × popcount(W)` high slots, and
the line is low after the last slot. -/
def Obligations.PulsesOfAFrame : Prop :=
  ∀ w : LogicalWord,
    levelChanges (wordLevels w) = 85
    ∧ (wordLevels w).countP (fun l => l) = 48 + 2 * ((List.range 42).countP fun i => w.getLsbD i)
    ∧ (wordLevels w).head? = some true ∧ (wordLevels w).getLast? = some false

/-- The active parameters (10_state.md R30): the calibration dummy in `CAL`, the parameter registers in every other phase. -/
def Obligations.ActiveParameters : Prop :=
  ∀ s : State,
    (s.phase = .cal → s.active = { tid := 0, chan := 0, mode := 0, str := 0, rpt := 1 } ∧ s.active.pack = 0)
    ∧ (s.phase ≠ .cal → s.active = s.p)

/-! ### PhaseTransmitter -/

/-- Commit (R88). The sink can be driven: `LINE` takes the level and the event is recorded, also when the level is the one
already there; nothing else changes but the environment's answer and the physical line. The sink cannot be driven:
SinkFault, and `LINE` keeps its value. Commit is performed in a run, where no wait hangs. -/
def Obligations.CommitRow : Prop :=
  ∀ (l : Level) (s : State), s.mayAct = true →
    (s.env.nextSink = true → exec (.commit l) s = .next
      { s with line := l, hist := .commit l :: s.hist, env := { s.env.tookSink with pin := l } })
    ∧ (s.env.nextSink = false → exec (.commit l) s = .next
      { s with phase := .fatal, busy := false, fatalFlag := true, cause := 1, hist := .fault .sinkFault :: s.hist,
               env := s.env.tookSink.freePin })

/-- Wait (R89): the wait lasts the requested time and an excess that only the environment knows; the clock advances by it,
the event is recorded, nothing else changes. -/
def Obligations.WaitRow : Prop :=
  ∀ (tu : Micros) (s : State), s.mayAct = true →
    ∀ x, s.env.nextWait = .ends x → ∃ d, 1000 * tu.toNat ≤ d ∧ d = 1000 * tu.toNat + x
      ∧ exec (.wait tu) s = .next
        { s with hist := .wait tu d :: s.hist, env := { s.env.tookWait with now := s.env.now + d } }

/-- QSTEP (R91): the commit of the slot's level first, then the wait of `TU`; if the commit fails, the wait does not
happen. -/
def Obligations.QstepRow : Prop :=
  ∀ (w : LogicalWord) (s : State), s.mayAct = true → s.qidx.toNat ≤ 175 →
    (∀ x, s.env.nextSink = true → s.env.tookSink.nextWait = .ends x → exec (.qstep w) s = .next
      { s with line := levelAt w s.qidx.toNat,
               hist := .wait s.tu (1000 * s.tu.toNat + x) :: .commit (levelAt w s.qidx.toNat) :: s.hist,
               env := { s.env.tookSink.tookWait with
                          pin := levelAt w s.qidx.toNat, now := s.env.now + (1000 * s.tu.toNat + x) } })
    ∧ (s.env.nextSink = false → exec (.qstep w) s = exec (.commit (levelAt w s.qidx.toNat)) s
        ∧ ∃ t, exec (.qstep w) s = .next t ∧ t.phase = .fatal ∧ t.hist = .fault .sinkFault :: s.hist
          ∧ t.env.now = s.env.now ∧ t.env.waits = s.env.waits ∧ t.line = s.line ∧ t.qidx = s.qidx)

/-- A wait that the environment never ends is a hang, no fault and no final state (43_run_control.md R123, 60_exceptions.md
R135): the core stays in the wait, in Wait with everything else as it was, in QSTEP with the slot's commit made and
recorded; the phase and `BUSY` stay as they are. With nothing at the inputs it stays there for ever; RESET leads out of it.
How the pending wait is held is the model's (log 5), and so is that the environment stays as it is meanwhile (log 25). -/
def Obligations.WaitThatNeverEnds : Prop :=
  (∀ (tu : Micros) (s : State), s.mayAct = true → s.env.nextWait = .never →
    exec (.wait tu) s = .next { s with waiting := some tu, env := s.env.tookWait })
  ∧ (∀ (w : LogicalWord) (s : State), s.mayAct = true → s.qidx.toNat ≤ 175 → s.env.nextSink = true →
    s.env.tookSink.nextWait = .never → exec (.qstep w) s = .next
      { s with waiting := some s.tu, line := levelAt w s.qidx.toNat,
               hist := .commit (levelAt w s.qidx.toNat) :: s.hist,
               env := { s.env.tookSink.tookWait with pin := levelAt w s.qidx.toNat } })
  ∧ (∀ s : State, s.waiting ≠ none → s.inputs = [] → ∀ n, core.run n s = .next s)
  ∧ (∀ s : State, s.waiting ≠ none → ∃ t, exec .reset s = .next t ∧ t.waiting = none ∧ t.phase = .idle)

/-- TRANSMIT (R90): 176 commits and 176 waits in slot order, each commit before its wait, and nothing between them; `QIDX`
is 0 and the line low at the end; no other register changes and the flag is not read. The excess of each of the 176 waits
is any number. -/
def Obligations.TransmitRow : Prop :=
  ∀ (w : LogicalWord) (s : State) (xs : List Nat) (sk : List Bool) (wk : List WaitAnswer),
    s.mayAct = true → xs.length = 176 →
    s.env.sink = List.replicate 176 true ++ sk → s.env.waits = xs.map .ends ++ wk →
    exec (.transmit w) s = .next
      { s with qidx := 0, line := false, hist := (frameEvents w s.tu xs).reverse ++ s.hist,
               env := { s.env with sink := sk, waits := wk, pin := false, now := s.env.now + waitsTime s.tu xs } }

/-- A SinkFault in a frame (41_phase_transmitter.md R95, 60_exceptions.md R136): when the sink fails at slot `q`, slots 0 to
`q-1` were driven and slot `q` was not; the history keeps them and ends with the fault; `QIDX` stays at `q`, `REP` and
`LINE` keep their values. -/
def Obligations.TransmitStopsAtTheFailingSlot : Prop :=
  ∀ (w : LogicalWord) (s : State) (q : Nat) (xs : List Nat) (sk : List Bool) (wk : List WaitAnswer),
    s.mayAct = true → q ≤ 175 → xs.length = q →
    s.env.sink = List.replicate q true ++ false :: sk → s.env.waits = xs.map .ends ++ wk →
    ∃ e, exec (.transmit w) s = .next
      { s with phase := .fatal, busy := false, fatalFlag := true, cause := 1, qidx := BitVec.ofNat 8 q,
               line := if q = 0 then s.line else levelAt w (q - 1),
               hist := .fault .sinkFault :: ((slotEvents w s.tu 0 xs).reverse ++ s.hist), env := e }
      ∧ e.now = s.env.now + waitsTime s.tu xs ∧ e.sink = sk ∧ e.waits = wk ∧ e.cancel = s.env.cancel
      ∧ e.drift = s.env.drift

/-- SEND (R92, R93, R96): `k` whole frames, back to back, each followed by exactly one read of the flag, where `k` is the
first repetition whose read returned true, or `A.REPEAT` if none did; `REP` is `k`; `CANCELLED` is set exactly when the
last read was true in phase `TX` with repetitions left over; nothing else changes. `rs` gives the excesses of each frame's
waits and the answer of each read. -/
def Obligations.SendRow : Prop :=
  ∀ (s : State) (k : Nat) (rs : List (List Nat × Bool)) (c : Bool) (sk : List Bool) (ck : List Bool)
    (wk : List WaitAnswer),
    s.mayAct = true → rs.length = k → 1 ≤ k → k ≤ s.active.rpt.toNat →
    (∀ r ∈ rs, r.1.length = 176) → rs.map Prod.snd = List.replicate (k - 1) false ++ [c] →
    (c = true ∨ k = s.active.rpt.toNat) →
    s.env.sink = List.replicate (176 * k) true ++ sk → s.env.cancel = rs.map Prod.snd ++ ck →
    s.env.waits = (rs.flatMap Prod.fst).map .ends ++ wk →
    exec .send s = .next
      { s with rep := BitVec.ofNat _ k, qidx := 0, line := false,
               cancelled := s.cancelled || (c && s.phase == .tx && decide (k < s.p.rpt.toNat)),
               hist := (sendEvents s.active.pack s.tu rs).reverse ++ s.hist,
               env := { s.env with sink := sk, cancel := ck, waits := wk, pin := false,
                                   now := s.env.now + waitsTime s.tu (rs.flatMap Prod.fst) } }

/-- SEND with `A.REPEAT = 0` sends nothing: no commit, no wait, no flag read (R92). -/
def Obligations.SendNothing : Prop :=
  ∀ s : State, s.mayAct = true → s.active.rpt = 0 → exec .send s = .next { s with rep := 0 }

/-- The frame of the transmitter's rows (Commit, Wait, QSTEP, TRANSMIT, SEND, CALFRAME): whatever the environment answers,
a next state has the parameter registers, `OVR`, `ITER`, `TU`, `TUF`, `T0`, `DONE` and the presented result as before; the
history only grows; and either the phase and the flags `BUSY`, `FATAL`, `CAUSE` are as before, where a wait may be left
pending that never ends, or a SinkFault was taken and no wait is pending. -/
def Obligations.TransmitterFrame : Prop :=
  ∀ (i : Instr) (s t : State),
    ((∃ l, i = .commit l) ∨ (∃ tu, i = .wait tu) ∨ (∃ w, i = .qstep w) ∨ (∃ w, i = .transmit w) ∨ i = .send
      ∨ i = .calframe) →
    exec i s = .next t →
    t.p = s.p ∧ t.written = s.written ∧ t.ovr = s.ovr ∧ t.iter = s.iter ∧ t.tu = s.tu ∧ t.tuf = s.tuf ∧ t.t0 = s.t0
    ∧ t.doneFlag = s.doneFlag ∧ t.out = s.out ∧ t.inputs = s.inputs ∧ (∃ es, t.hist = es ++ s.hist)
    ∧ t.env.drift = s.env.drift
    ∧ ((t.phase = s.phase ∧ t.busy = s.busy ∧ t.fatalFlag = s.fatalFlag ∧ t.cause = s.cause
        ∧ ((∃ l, i = .commit l) → t.waiting = none))
      ∨ (t.phase = .fatal ∧ t.busy = false ∧ t.fatalFlag = true ∧ t.cause = 1 ∧ t.waiting = none
        ∧ t.hist.head? = some (.fault .sinkFault)))

/-- Operations that the sequencer position does not select are not performed (30_encoding.md R69; that the model then
offers no move is its choice, log 8): outside their phase, and in a wait that hangs. -/
def Obligations.OperationsOnlyWhereSelected : Prop :=
  ∀ s : State,
    (s.inRun = false ∨ s.waiting ≠ none → ∀ (l : Level) (tu : Micros) (w : LogicalWord) (c : Cause),
      exec (.commit l) s = .refused .notSelected ∧ exec (.wait tu) s = .refused .notSelected
      ∧ exec (.qstep w) s = .refused .notSelected ∧ exec (.transmit w) s = .refused .notSelected
      ∧ exec .send s = .refused .notSelected ∧ exec (.abort c) s = .refused .notSelected)
    ∧ (s.phase ≠ .cal ∨ s.waiting ≠ none → ∀ m : Nat,
      exec .calSeed s = .refused .notSelected ∧ exec .calMeasure s = .refused .notSelected
      ∧ exec (.calCorrect m) s = .refused .notSelected ∧ exec .calibrate s = .refused .notSelected
      ∧ exec .calframe s = .refused .notSelected ∧ exec (.abort .calDivideByZero) s = .refused .notSelected
      ∧ exec (.abort .calOverflow) s = .refused .notSelected)
    ∧ (s.mayStart = false ∨ s.ovr ≠ 0 → exec .runCal s = .refused .notSelected)
    ∧ (s.mayStart = false ∨ s.ovr = 0 → exec .runOvr s = .refused .notSelected)

/-! ### Calibrator -/

/-- CAL_SEED (R104): `TU` is 1 000 000 div 4000 = 250 and `ITER` is 0; nothing else changes. `TU` is written under its
write enable (10_state.md R32), which is open in `CAL`. -/
def Obligations.CalSeedRow : Prop :=
  ∀ s : State, s.phase = .cal → s.waiting = none → s.tuf = false → exec .calSeed s = .next { s with tu := 250, iter := 0 }

/-- CAL_MEASURE (R105): the clock is read, one CAL frame is sent, the clock is read again; `T0` is the first reading and the
result is `(elapsed div 176) div 1000` of the true time between the two readings, as long as the clock stays below 2^64 ns
(D9). The flag's answer `c` changes nothing. -/
def Obligations.CalMeasureRow : Prop :=
  ∀ (s : State) (xs : List Nat) (sk : List Bool) (c : Bool) (ck : List Bool) (wk : List WaitAnswer) (d0 d1 : Nat)
    (dk : List Nat),
    s.phase = .cal → s.waiting = none → xs.length = 176 →
    s.env.sink = List.replicate 176 true ++ sk → s.env.cancel = c :: ck → s.env.waits = xs.map .ends ++ wk →
    s.env.drift = d0 :: d1 :: dk →
    s.env.now + d0 + waitsTime s.tu xs + d1 < 2 ^ 64 →
    exec .calMeasure s = .next
      { s with t0 := BitVec.ofNat _ (s.env.now + d0), rep := 1, qidx := 0, line := false,
               out := .measured ((waitsTime s.tu xs + d1) / 176 / 1000),
               hist := .clock (BitVec.ofNat _ (s.env.now + d0 + waitsTime s.tu xs + d1)) :: .cancel c
                 :: ((frameEvents 0 s.tu xs).reverse ++ .clock (BitVec.ofNat _ (s.env.now + d0)) :: s.hist),
               env := { s.env with sink := sk, cancel := ck, waits := wk, drift := dk, pin := false,
                                   now := s.env.now + d0 + waitsTime s.tu xs + d1 } }

/-- CAL_CORRECT (R107): the zero test, then the overflow test, then `TU <- (250 × TU) div meas`; each fault is taken as
60_exceptions.md R133 says and leaves `TU` and `ITER` as they were. -/
def Obligations.CalCorrectRow : Prop :=
  ∀ (s : State) (meas : Nat), s.phase = .cal → s.waiting = none → s.tuf = false →
    (meas = 0 → exec (.calCorrect meas) s = .next
      { s with phase := .fatal, busy := false, fatalFlag := true, cause := 2,
               hist := .fault .calDivideByZero :: s.hist })
    ∧ (meas ≠ 0 → 2 ^ 32 ≤ 250 * s.tu.toNat / meas → exec (.calCorrect meas) s = .next
      { s with phase := .fatal, busy := false, fatalFlag := true, cause := 3, hist := .fault .calOverflow :: s.hist })
    ∧ (meas ≠ 0 → 250 * s.tu.toNat / meas < 2 ^ 32 → ∃ v : Micros, v.toNat = 250 * s.tu.toNat / meas
      ∧ exec (.calCorrect meas) s = .next { s with tu := v })

/-- CALFRAME (30_encoding.md R69): `SEND` of the calibration dummy: one frame with all fields zero, `W = 0`, one read of the
flag whose answer changes nothing (R93). -/
def Obligations.CalframeRow : Prop :=
  ∀ (s : State) (xs : List Nat) (sk : List Bool) (c : Bool) (ck : List Bool) (wk : List WaitAnswer),
    s.phase = .cal → s.waiting = none → xs.length = 176 →
    s.env.sink = List.replicate 176 true ++ sk → s.env.cancel = c :: ck → s.env.waits = xs.map .ends ++ wk →
    exec .calframe s = exec .send s
    ∧ exec .calframe s = .next
      { s with rep := 1, qidx := 0, line := false,
               hist := .cancel c :: ((frameEvents 0 s.tu xs).reverse ++ s.hist),
               env := { s.env with sink := sk, cancel := ck, waits := wk, pin := false,
                                   now := s.env.now + waitsTime s.tu xs } }

/-- CALIBRATE under a constant overhead of `x` ns a slot (R108, R111): the history gains the events of ten iterations, each
a timestamp, a CAL frame at the `TU` of the iteration, the flag's read and a timestamp, and none of the ten corrections
faults; `ITER` ends at 10 and `TU` is the tenth iterate, from 250, of `TU' = (250 × TU) div (TU + x div 1000)`; with less
than 1000 ns of overhead that is 250, the nominal value. The ten answers of the flag change nothing. Registers that R108
does not name are as before. -/
def Obligations.CalibrateUnderConstantOverhead : Prop :=
  ∀ (s : State) (x : Nat) (sk : List Bool) (cs ck : List Bool) (wk : List WaitAnswer) (dk : List Nat),
    s.phase = .cal → s.waiting = none → s.tuf = false → cs.length = 10 →
    s.env.sink = List.replicate 1760 true ++ sk → s.env.cancel = cs ++ ck →
    s.env.waits = List.replicate 1760 (.ends x) ++ wk → s.env.drift = List.replicate 20 0 ++ dk →
    s.env.now + 1760 * (250000 + x) < 2 ^ 64 →
    ∃ t, exec .calibrate s = .next t ∧ t.phase = .cal ∧ t.iter = 10 ∧ t.tu.toNat = (steadyCorrection x)^[10] 250
      ∧ (x < 1000 → t.tu = 250) ∧ t.rep = 1 ∧ t.qidx = 0 ∧ t.line = false
      ∧ t.hist = (calEvents x s.env.now 250 cs).reverse ++ s.hist
      ∧ t.commits = s.commits + 1760 ∧ t.clockReads = s.clockReads + 20 ∧ t.flagReads = s.flagReads + 10
      ∧ t.waiting = none ∧ t.p = s.p ∧ t.written = s.written ∧ t.ovr = s.ovr ∧ t.tuf = s.tuf ∧ t.busy = s.busy ∧ t.doneFlag = s.doneFlag
      ∧ t.fatalFlag = s.fatalFlag ∧ t.cancelled = s.cancelled ∧ t.cause = s.cause ∧ t.out = s.out
      ∧ t.inputs = s.inputs ∧ t.env.sink = sk ∧ t.env.cancel = ck ∧ t.env.waits = wk ∧ t.env.drift = dk

/-- The bounds of 42_calibrator.md R113, whatever the environment answers, as long as the clock stays below 2^64 ns (D9): a
measurement is never less than `TU`; calibration never raises CalOverflow; where it ends with no fault and no hang, `TU` is
at most 250, the nominal value; and it raises CalDivideByZero only from `TU = 0`. -/
def Obligations.CalibrationBounds : Prop :=
  ∀ s t : State, s.phase = .cal → s.tuf = false → t.env.now < 2 ^ 64 →
    (∀ m, exec .calMeasure s = .next t → t.phase = .cal → t.waiting = none → t.out = .measured m → s.tu.toNat ≤ m)
    ∧ (exec .calibrate s = .next t → t.cause = s.cause ∨ t.cause = 1 ∨ (t.cause = 2 ∧ t.tu = 0))
    ∧ (exec .calibrate s = .next t → t.phase = .cal → t.waiting = none → t.tu.toNat ≤ 250 ∧ t.iter = 10)

/-- The frame of the calibrator's rows: whatever the environment answers, a next state of CAL_SEED, CAL_MEASURE,
CAL_CORRECT or CALIBRATE has the parameter registers, `OVR`, `TUF`, `DONE` and `CANCELLED` as before, `TU` as before where
it is frozen, and either the phase and the flags as before (where a wait may be left pending that never ends) or a fault
taken. -/
def Obligations.CalibratorFrame : Prop :=
  ∀ (i : Instr) (s t : State),
    (i = .calSeed ∨ i = .calMeasure ∨ (∃ m, i = .calCorrect m) ∨ i = .calibrate) → exec i s = .next t →
    t.p = s.p ∧ t.written = s.written ∧ t.ovr = s.ovr ∧ t.tuf = s.tuf ∧ t.doneFlag = s.doneFlag
    ∧ t.cancelled = s.cancelled ∧ t.inputs = s.inputs ∧ (∃ es, t.hist = es ++ s.hist)
    ∧ (i = .calSeed ∨ (∃ m, i = .calCorrect m) → t.waiting = none ∧ t.env = s.env ∧ t.t0 = s.t0 ∧ t.line = s.line)
    ∧ (i ≠ .calMeasure → t.out = s.out) ∧ (i = .calMeasure → t.tu = s.tu ∧ t.iter = s.iter)
    ∧ (s.tuf = true → t.tu = s.tu)
    ∧ ((t.phase = s.phase ∧ t.busy = s.busy ∧ t.fatalFlag = s.fatalFlag ∧ t.cause = s.cause)
      ∨ (t.phase = .fatal ∧ t.busy = false ∧ t.fatalFlag = true ∧ t.cause ≠ 0))

/-! ### Run control -/

/-- P_WRITE (R121, 30_encoding.md R64): in `IDLE` the six registers take the six values, each cut to its register's width,
and are marked as written; in every other phase nothing changes. -/
def Obligations.PWriteRow : Prop :=
  ∀ (tid chan mode str rpt ovr : Nat) (s : State),
    (s.phase = .idle → ∃ (q : Params) (o : Micros),
      exec (.pWrite tid chan mode str rpt ovr) s = .next { s with p := q, ovr := o, written := true }
      ∧ q.tid.toNat = tid % 65536 ∧ q.chan.toNat = chan % 16 ∧ q.mode.toNat = mode % 16 ∧ q.str.toNat = str % 256
      ∧ q.rpt.toNat = rpt % 65536 ∧ o.toNat = ovr % 4294967296)
    ∧ (s.phase ≠ .idle → exec (.pWrite tid chan mode str rpt ovr) s = .next s)

/-- START (R118, R127): accepted only in `IDLE` with the parameters written; it then begins the run, in `CAL` with the seed
when `OVR = 0`, in `TX` with `TU <- OVR` frozen when it is not; elsewhere it is ignored, and with unwritten parameters it is
refused, and changes nothing (log 7). -/
def Obligations.StartRow : Prop :=
  ∀ s : State,
    (s.phase = .idle → s.written = true → s.tuf = false → s.ovr = 0 →
      exec .start s = .next { s with busy := true, phase := .cal, tu := 250, iter := 0 })
    ∧ (s.phase = .idle → s.written = true → s.tuf = false → s.ovr ≠ 0 →
      exec .start s = .next { s with busy := true, phase := .tx, tu := s.ovr, tuf := true, rep := 0 })
    ∧ (s.phase = .idle → s.written = false → exec .start s = .next s)
    ∧ (s.phase ≠ .idle → exec .start s = .next s)

/-- RESET (R150, R151), in every phase, also while busy: every register that R39 gives a value has it, nothing of the run
survives, the parameters are unwritten again; the clock, the flag and the sink are not the core's to reset. The values of
the parameter registers and of `T0` are no part of the statement. -/
def Obligations.ResetRow : Prop :=
  ∀ s : State, ∃ t, exec .reset s = .next t
    ∧ t.phase = .idle ∧ t.iter = 0 ∧ t.rep = 0 ∧ t.qidx = 0 ∧ t.tu = 0 ∧ t.tuf = false ∧ t.ovr = 0 ∧ t.line = false
    ∧ t.busy = false ∧ t.doneFlag = false ∧ t.fatalFlag = false ∧ t.cancelled = false ∧ t.cause = 0
    ∧ t.written = false ∧ t.waiting = none
    ∧ t.env.now = s.env.now ∧ t.env.sink = s.env.sink ∧ t.env.cancel = s.env.cancel ∧ t.env.waits = s.env.waits
    ∧ t.env.drift = s.env.drift

/-- ABORT (60_exceptions.md R133): the fault is recorded, `CAUSE` takes its code (R130), `PHASE` is `FATAL`, `BUSY` is 0,
`FATAL` is 1, and everything else is unchanged. SinkFault is raised in `CAL` and `TX`, the calibration faults in `CAL`. As
long as nothing stands at the inputs, nothing happens after it (R139); that the environment and its time stay as they are
too is the model's (log 25). -/
def Obligations.AbortRow : Prop :=
  ∀ s : State,
    (s.phase = .cal ∨ s.phase = .tx → s.waiting = none → exec (.abort .sinkFault) s = .next
      { s with cause := 1, phase := .fatal, busy := false, fatalFlag := true, hist := .fault .sinkFault :: s.hist })
    ∧ (s.phase = .cal → s.waiting = none → exec (.abort .calDivideByZero) s = .next
      { s with cause := 2, phase := .fatal, busy := false, fatalFlag := true,
               hist := .fault .calDivideByZero :: s.hist })
    ∧ (s.phase = .cal → s.waiting = none → exec (.abort .calOverflow) s = .next
      { s with cause := 3, phase := .fatal, busy := false, fatalFlag := true, hist := .fault .calOverflow :: s.hist })
    ∧ (∀ c t, exec (.abort c) s = .next t → t.inputs = [] → ∀ n, core.run n t = .next t)

/-- RUN with an override (R119, 42_calibrator.md R110): no calibration and no clock read; `TU` is `OVR` and frozen; the
repetitions of SendRow are sent with the parameter registers; the run ends in `DONE`, also when it was cancelled. -/
def Obligations.RunOvrRow : Prop :=
  ∀ (s : State) (k : Nat) (rs : List (List Nat × Bool)) (c : Bool) (sk : List Bool) (ck : List Bool)
    (wk : List WaitAnswer),
    s.phase = .idle → s.written = true → s.tuf = false → s.ovr ≠ 0 →
    rs.length = k → 1 ≤ k → k ≤ s.p.rpt.toNat →
    (∀ r ∈ rs, r.1.length = 176) → rs.map Prod.snd = List.replicate (k - 1) false ++ [c] →
    (c = true ∨ k = s.p.rpt.toNat) →
    s.env.sink = List.replicate (176 * k) true ++ sk → s.env.cancel = rs.map Prod.snd ++ ck →
    s.env.waits = (rs.flatMap Prod.fst).map .ends ++ wk →
    exec .runOvr s = .next
      { s with phase := .done, busy := false, doneFlag := true, tu := s.ovr, tuf := true, rep := BitVec.ofNat _ k,
               qidx := 0, line := false, cancelled := s.cancelled || (c && decide (k < s.p.rpt.toNat)),
               hist := (sendEvents s.p.pack s.ovr rs).reverse ++ s.hist,
               env := { s.env with sink := sk, cancel := ck, waits := wk, pin := false,
                                   now := s.env.now + waitsTime s.ovr (rs.flatMap Prod.fst) } }

/-- RUN without an override, under a constant overhead of `x` ns a slot and no cancellation (R119, R111): the history gains
the events of ten iterations from the seed on, and then those of `P.REPEAT` frames with the parameter registers at the
frozen `TU`, each followed by a read of the flag; the run ends in `DONE`. -/
def Obligations.RunCalRow : Prop :=
  ∀ (s : State) (x : Nat) (sk ck : List Bool) (cs : List Bool) (wk : List WaitAnswer) (dk : List Nat),
    s.phase = .idle → s.written = true → s.tuf = false → s.cancelled = false → s.ovr = 0 → cs.length = 10 →
    s.env.sink = List.replicate (1760 + 176 * s.p.rpt.toNat) true ++ sk →
    s.env.cancel = cs ++ (List.replicate s.p.rpt.toNat false ++ ck) →
    s.env.waits = List.replicate (1760 + 176 * s.p.rpt.toNat) (.ends x) ++ wk →
    s.env.drift = List.replicate 20 0 ++ dk →
    s.env.now + 1760 * (250000 + x) < 2 ^ 64 →
    ∃ t, exec .runCal s = .next t ∧ t.phase = .done ∧ t.doneFlag = true ∧ t.busy = false ∧ t.tuf = true
      ∧ t.iter = 10 ∧ t.rep = s.p.rpt ∧ t.cancelled = false ∧ t.tu.toNat = (steadyCorrection x)^[10] 250
      ∧ t.hist = (sendEvents s.p.pack t.tu (List.replicate s.p.rpt.toNat (List.replicate 176 x, false))).reverse
        ++ ((calEvents x s.env.now 250 cs).reverse ++ s.hist)
      ∧ t.qidx = 0 ∧ t.line = false ∧ t.waiting = s.waiting ∧ t.commits = s.commits + 1760 + 176 * s.p.rpt.toNat
      ∧ t.clockReads = s.clockReads + 20 ∧ t.flagReads = s.flagReads + 10 + s.p.rpt.toNat
      ∧ t.p = s.p ∧ t.ovr = s.ovr ∧ t.written = s.written ∧ t.fatalFlag = s.fatalFlag ∧ t.cause = s.cause
      ∧ t.out = s.out ∧ t.inputs = s.inputs ∧ t.env.sink = sk ∧ t.env.cancel = ck ∧ t.env.waits = wk
      ∧ t.env.drift = dk

/-- RUN with an override and `P.REPEAT = 0` puts nothing on the line and ends in `DONE` (43_run_control.md R124). -/
def Obligations.RunWithRepeatZero : Prop :=
  ∀ s : State, s.phase = .idle → s.written = true → s.tuf = false → s.ovr ≠ 0 → s.p.rpt = 0 →
    exec .runOvr s = .next
      { s with phase := .done, busy := false, doneFlag := true, tu := s.ovr, tuf := true, rep := 0 }

/-- RUN as one operation and the run that START begins and the sequencer carries on slot by slot are the same: whatever
the environment answers, after enough steps with nothing at the inputs the machine stands where RUN leads, in `DONE`, in
`FATAL` or in a hang (decision D18; log 10, log 11), and stays there, the environment with it (log 25). -/
def Obligations.StartThenStepsIsRun : Prop :=
  ∀ s : State, Inv s → s.inputs = [] → s.mayStart = true →
    ∃ n, ∀ m, n ≤ m →
      core.run m (s.withInput .start) = exec (if s.ovr = 0 then .runCal else .runOvr) s

/-! ### The whole machine -/

/-- The invariant holds at reset. -/
def Obligations.InvAtReset : Prop := Inv State.reset

/-- Every step keeps the invariant, whatever stands at the inputs and whatever the environment answers. -/
def Obligations.StepKeepsInv : Prop :=
  ∀ s t : State, Inv s → step s = .next t → Inv t

/-- No transition of the phase machine exists that 43_run_control.md R127 does not list. -/
def Obligations.OnlyListedTransitions : Prop :=
  ∀ s t : State, step s = .next t →
    phaseStep s.phase t.phase = true ∨ (s.input = .reset ∧ t.phase = .idle)

/-- While `TUF = 1` no operation writes `TU`, and `TUF` is cleared only by reset (10_state.md R32, 42_calibrator.md R109). -/
def Obligations.TimingUnitFrozen : Prop :=
  ∀ s t : State, s.tuf = true → step s = .next t → s.input ≠ .reset → t.tu = s.tu ∧ t.tuf = true

/-- The parameters are stable outside `IDLE` (70_reset_and_hazards.md R154), and in `IDLE` only P_WRITE changes them. -/
def Obligations.ParametersStable : Prop :=
  ∀ s t : State, step s = .next t → s.input ≠ .reset →
    (s.phase = .idle → ∀ a b c d e f, s.input ≠ .pWrite a b c d e f) →
    t.p = s.p ∧ t.ovr = s.ovr ∧ t.written = s.written

/-- `DONE` and `FATAL` are left only by reset (10_state.md R28, 60_exceptions.md R139): any other step leaves every
register and the history as they are. That it leaves the environment as it is, and that a pattern at the inputs can still
have its result presented, is the model's (log 25, log 26, log 1). -/
def Obligations.FinalPhasesAreFinal : Prop :=
  ∀ s t : State, s.phase = .done ∨ s.phase = .fatal → s.input ≠ .reset → step s = .next t →
    t = { s.moveOn with out := t.out }

/-- Events are never taken back: a step other than reset only adds to the history (00_scope.md R13,
41_phase_transmitter.md R95). -/
def Obligations.HistoryOnlyGrows : Prop :=
  ∀ s t : State, step s = .next t → s.input ≠ .reset → ∃ es, t.hist = es ++ s.hist

/-- The true time never goes back (20_memory.md R46). -/
def Obligations.ClockNeverGoesBack : Prop :=
  ∀ s t : State, step s = .next t → s.env.now ≤ t.env.now

/-- A slot inside a frame reads neither the flag nor the clock; the step of the last slot reads the flag exactly once
(41_phase_transmitter.md R93, 20_memory.md R47), unless the frame is cut by a fault or a wait that never ends. -/
def Obligations.FlagReadOnlyBetweenFrames : Prop :=
  ∀ s t : State, s.input = .quiet → step s = .next t →
    (s.qidx.toNat < 175 → t.flagReads = s.flagReads ∧ t.env.cancel = s.env.cancel)
    ∧ (s.qidx ≠ 0 → s.qidx.toNat < 175 → t.clockReads = s.clockReads)
    ∧ (s.qidx.toNat = 175 → s.selected ≠ none → t.flagReads = s.flagReads + 1 ∨ (t.flagReads = s.flagReads
        ∧ ((t.phase = .fatal ∧ t.cause = 1) ∨ t.waiting ≠ none)))

/-- Only whole frames (41_phase_transmitter.md R90, R92, R93): at every position of a run the commits made are 176 for each
finished frame and one for each slot of the frame in progress, the slot of a wait that hangs among them; so a run that
reaches `DONE` has sent whole frames only, cancelled or not. -/
def Obligations.StepKeepsWholeFrames : Prop :=
  ∀ s t : State, Inv s → WholeFrames s → step s = .next t → WholeFrames t

/-- `LINE` shows the slot before the position, and is low between frames and after the run (10_state.md R34,
30_encoding.md R55). -/
def Obligations.StepKeepsLineAgreement : Prop :=
  ∀ s t : State, Inv s → LineAgrees s → step s = .next t → LineAgrees t

/-- Both hold at reset. -/
def Obligations.RunInvariantsAtReset : Prop := WholeFrames State.reset ∧ LineAgrees State.reset
end

