-- ==== Sys2Proof/Laws/State.lean ====
section
/-! SUPPORT. One lemma per field per named update of State and of Env, true by rfl, so that no proof unfolds a record
update. -/

namespace Sys2Proof.Machine

section
variable (s : State)
@[simp] theorem enterCal_p : (s.enterCal).p = s.p := rfl
@[simp] theorem enterCal_written : (s.enterCal).written = s.written := rfl
@[simp] theorem enterCal_ovr : (s.enterCal).ovr = s.ovr := rfl
@[simp] theorem enterCal_phase : (s.enterCal).phase = .cal := rfl
@[simp] theorem enterCal_iter : (s.enterCal).iter = s.iter := rfl
@[simp] theorem enterCal_rep : (s.enterCal).rep = s.rep := rfl
@[simp] theorem enterCal_qidx : (s.enterCal).qidx = s.qidx := rfl
@[simp] theorem enterCal_tu : (s.enterCal).tu = s.tu := rfl
@[simp] theorem enterCal_tuf : (s.enterCal).tuf = s.tuf := rfl
@[simp] theorem enterCal_t0 : (s.enterCal).t0 = s.t0 := rfl
@[simp] theorem enterCal_line : (s.enterCal).line = s.line := rfl
@[simp] theorem enterCal_busy : (s.enterCal).busy = true := rfl
@[simp] theorem enterCal_doneFlag : (s.enterCal).doneFlag = s.doneFlag := rfl
@[simp] theorem enterCal_fatalFlag : (s.enterCal).fatalFlag = s.fatalFlag := rfl
@[simp] theorem enterCal_cancelled : (s.enterCal).cancelled = s.cancelled := rfl
@[simp] theorem enterCal_cause : (s.enterCal).cause = s.cause := rfl
@[simp] theorem enterCal_waiting : (s.enterCal).waiting = s.waiting := rfl
@[simp] theorem enterCal_env : (s.enterCal).env = s.env := rfl
@[simp] theorem enterCal_hist : (s.enterCal).hist = s.hist := rfl
@[simp] theorem enterCal_inputs : (s.enterCal).inputs = s.inputs := rfl
@[simp] theorem enterCal_out : (s.enterCal).out = s.out := rfl
end

section
variable (s : State)
@[simp] theorem enterTx_p : (s.enterTx).p = s.p := rfl
@[simp] theorem enterTx_written : (s.enterTx).written = s.written := rfl
@[simp] theorem enterTx_ovr : (s.enterTx).ovr = s.ovr := rfl
@[simp] theorem enterTx_phase : (s.enterTx).phase = .tx := rfl
@[simp] theorem enterTx_iter : (s.enterTx).iter = s.iter := rfl
@[simp] theorem enterTx_rep : (s.enterTx).rep = 0 := rfl
@[simp] theorem enterTx_qidx : (s.enterTx).qidx = s.qidx := rfl
@[simp] theorem enterTx_tu : (s.enterTx).tu = s.tu := rfl
@[simp] theorem enterTx_tuf : (s.enterTx).tuf = true := rfl
@[simp] theorem enterTx_t0 : (s.enterTx).t0 = s.t0 := rfl
@[simp] theorem enterTx_line : (s.enterTx).line = s.line := rfl
@[simp] theorem enterTx_busy : (s.enterTx).busy = true := rfl
@[simp] theorem enterTx_doneFlag : (s.enterTx).doneFlag = s.doneFlag := rfl
@[simp] theorem enterTx_fatalFlag : (s.enterTx).fatalFlag = s.fatalFlag := rfl
@[simp] theorem enterTx_cancelled : (s.enterTx).cancelled = s.cancelled := rfl
@[simp] theorem enterTx_cause : (s.enterTx).cause = s.cause := rfl
@[simp] theorem enterTx_waiting : (s.enterTx).waiting = s.waiting := rfl
@[simp] theorem enterTx_env : (s.enterTx).env = s.env := rfl
@[simp] theorem enterTx_hist : (s.enterTx).hist = s.hist := rfl
@[simp] theorem enterTx_inputs : (s.enterTx).inputs = s.inputs := rfl
@[simp] theorem enterTx_out : (s.enterTx).out = s.out := rfl
end

section
variable (s : State)
@[simp] theorem enterDone_p : (s.enterDone).p = s.p := rfl
@[simp] theorem enterDone_written : (s.enterDone).written = s.written := rfl
@[simp] theorem enterDone_ovr : (s.enterDone).ovr = s.ovr := rfl
@[simp] theorem enterDone_phase : (s.enterDone).phase = .done := rfl
@[simp] theorem enterDone_iter : (s.enterDone).iter = s.iter := rfl
@[simp] theorem enterDone_rep : (s.enterDone).rep = s.rep := rfl
@[simp] theorem enterDone_qidx : (s.enterDone).qidx = s.qidx := rfl
@[simp] theorem enterDone_tu : (s.enterDone).tu = s.tu := rfl
@[simp] theorem enterDone_tuf : (s.enterDone).tuf = s.tuf := rfl
@[simp] theorem enterDone_t0 : (s.enterDone).t0 = s.t0 := rfl
@[simp] theorem enterDone_line : (s.enterDone).line = s.line := rfl
@[simp] theorem enterDone_busy : (s.enterDone).busy = false := rfl
@[simp] theorem enterDone_doneFlag : (s.enterDone).doneFlag = true := rfl
@[simp] theorem enterDone_fatalFlag : (s.enterDone).fatalFlag = s.fatalFlag := rfl
@[simp] theorem enterDone_cancelled : (s.enterDone).cancelled = s.cancelled := rfl
@[simp] theorem enterDone_cause : (s.enterDone).cause = s.cause := rfl
@[simp] theorem enterDone_waiting : (s.enterDone).waiting = s.waiting := rfl
@[simp] theorem enterDone_env : (s.enterDone).env = s.env := rfl
@[simp] theorem enterDone_hist : (s.enterDone).hist = s.hist := rfl
@[simp] theorem enterDone_inputs : (s.enterDone).inputs = s.inputs := rfl
@[simp] theorem enterDone_out : (s.enterDone).out = s.out := rfl
end

section
variable (s : State) (c : Cause)
@[simp] theorem enterFatal_p : (s.enterFatal c).p = s.p := rfl
@[simp] theorem enterFatal_written : (s.enterFatal c).written = s.written := rfl
@[simp] theorem enterFatal_ovr : (s.enterFatal c).ovr = s.ovr := rfl
@[simp] theorem enterFatal_phase : (s.enterFatal c).phase = .fatal := rfl
@[simp] theorem enterFatal_iter : (s.enterFatal c).iter = s.iter := rfl
@[simp] theorem enterFatal_rep : (s.enterFatal c).rep = s.rep := rfl
@[simp] theorem enterFatal_qidx : (s.enterFatal c).qidx = s.qidx := rfl
@[simp] theorem enterFatal_tu : (s.enterFatal c).tu = s.tu := rfl
@[simp] theorem enterFatal_tuf : (s.enterFatal c).tuf = s.tuf := rfl
@[simp] theorem enterFatal_t0 : (s.enterFatal c).t0 = s.t0 := rfl
@[simp] theorem enterFatal_line : (s.enterFatal c).line = s.line := rfl
@[simp] theorem enterFatal_busy : (s.enterFatal c).busy = false := rfl
@[simp] theorem enterFatal_doneFlag : (s.enterFatal c).doneFlag = s.doneFlag := rfl
@[simp] theorem enterFatal_fatalFlag : (s.enterFatal c).fatalFlag = true := rfl
@[simp] theorem enterFatal_cancelled : (s.enterFatal c).cancelled = s.cancelled := rfl
@[simp] theorem enterFatal_cause : (s.enterFatal c).cause = causeCode c := rfl
@[simp] theorem enterFatal_waiting : (s.enterFatal c).waiting = s.waiting := rfl
@[simp] theorem enterFatal_env : (s.enterFatal c).env = s.env := rfl
@[simp] theorem enterFatal_hist : (s.enterFatal c).hist = s.hist := rfl
@[simp] theorem enterFatal_inputs : (s.enterFatal c).inputs = s.inputs := rfl
@[simp] theorem enterFatal_out : (s.enterFatal c).out = s.out := rfl
end

section
variable (s : State) (c : Bool)
@[simp] theorem noteCancel_p : (s.noteCancel c).p = s.p := rfl
@[simp] theorem noteCancel_written : (s.noteCancel c).written = s.written := rfl
@[simp] theorem noteCancel_ovr : (s.noteCancel c).ovr = s.ovr := rfl
@[simp] theorem noteCancel_phase : (s.noteCancel c).phase = s.phase := rfl
@[simp] theorem noteCancel_iter : (s.noteCancel c).iter = s.iter := rfl
@[simp] theorem noteCancel_rep : (s.noteCancel c).rep = s.rep := rfl
@[simp] theorem noteCancel_qidx : (s.noteCancel c).qidx = s.qidx := rfl
@[simp] theorem noteCancel_tu : (s.noteCancel c).tu = s.tu := rfl
@[simp] theorem noteCancel_tuf : (s.noteCancel c).tuf = s.tuf := rfl
@[simp] theorem noteCancel_t0 : (s.noteCancel c).t0 = s.t0 := rfl
@[simp] theorem noteCancel_line : (s.noteCancel c).line = s.line := rfl
@[simp] theorem noteCancel_busy : (s.noteCancel c).busy = s.busy := rfl
@[simp] theorem noteCancel_doneFlag : (s.noteCancel c).doneFlag = s.doneFlag := rfl
@[simp] theorem noteCancel_fatalFlag : (s.noteCancel c).fatalFlag = s.fatalFlag := rfl
@[simp] theorem noteCancel_cancelled : (s.noteCancel c).cancelled = (s.cancelled || (c && (s.phase == .tx && s.rep.ult s.p.rpt))) := rfl
@[simp] theorem noteCancel_cause : (s.noteCancel c).cause = s.cause := rfl
@[simp] theorem noteCancel_waiting : (s.noteCancel c).waiting = s.waiting := rfl
@[simp] theorem noteCancel_env : (s.noteCancel c).env = s.env := rfl
@[simp] theorem noteCancel_hist : (s.noteCancel c).hist = s.hist := rfl
@[simp] theorem noteCancel_inputs : (s.noteCancel c).inputs = s.inputs := rfl
@[simp] theorem noteCancel_out : (s.noteCancel c).out = s.out := rfl
end

section
variable (s : State) (e : Event)
@[simp] theorem record_p : (s.record e).p = s.p := rfl
@[simp] theorem record_written : (s.record e).written = s.written := rfl
@[simp] theorem record_ovr : (s.record e).ovr = s.ovr := rfl
@[simp] theorem record_phase : (s.record e).phase = s.phase := rfl
@[simp] theorem record_iter : (s.record e).iter = s.iter := rfl
@[simp] theorem record_rep : (s.record e).rep = s.rep := rfl
@[simp] theorem record_qidx : (s.record e).qidx = s.qidx := rfl
@[simp] theorem record_tu : (s.record e).tu = s.tu := rfl
@[simp] theorem record_tuf : (s.record e).tuf = s.tuf := rfl
@[simp] theorem record_t0 : (s.record e).t0 = s.t0 := rfl
@[simp] theorem record_line : (s.record e).line = s.line := rfl
@[simp] theorem record_busy : (s.record e).busy = s.busy := rfl
@[simp] theorem record_doneFlag : (s.record e).doneFlag = s.doneFlag := rfl
@[simp] theorem record_fatalFlag : (s.record e).fatalFlag = s.fatalFlag := rfl
@[simp] theorem record_cancelled : (s.record e).cancelled = s.cancelled := rfl
@[simp] theorem record_cause : (s.record e).cause = s.cause := rfl
@[simp] theorem record_waiting : (s.record e).waiting = s.waiting := rfl
@[simp] theorem record_env : (s.record e).env = s.env := rfl
@[simp] theorem record_hist : (s.record e).hist = e :: s.hist := rfl
@[simp] theorem record_inputs : (s.record e).inputs = s.inputs := rfl
@[simp] theorem record_out : (s.record e).out = s.out := rfl
end

section
variable (s : State) (f : Env → Env)
@[simp] theorem mapEnv_p : (s.mapEnv f).p = s.p := rfl
@[simp] theorem mapEnv_written : (s.mapEnv f).written = s.written := rfl
@[simp] theorem mapEnv_ovr : (s.mapEnv f).ovr = s.ovr := rfl
@[simp] theorem mapEnv_phase : (s.mapEnv f).phase = s.phase := rfl
@[simp] theorem mapEnv_iter : (s.mapEnv f).iter = s.iter := rfl
@[simp] theorem mapEnv_rep : (s.mapEnv f).rep = s.rep := rfl
@[simp] theorem mapEnv_qidx : (s.mapEnv f).qidx = s.qidx := rfl
@[simp] theorem mapEnv_tu : (s.mapEnv f).tu = s.tu := rfl
@[simp] theorem mapEnv_tuf : (s.mapEnv f).tuf = s.tuf := rfl
@[simp] theorem mapEnv_t0 : (s.mapEnv f).t0 = s.t0 := rfl
@[simp] theorem mapEnv_line : (s.mapEnv f).line = s.line := rfl
@[simp] theorem mapEnv_busy : (s.mapEnv f).busy = s.busy := rfl
@[simp] theorem mapEnv_doneFlag : (s.mapEnv f).doneFlag = s.doneFlag := rfl
@[simp] theorem mapEnv_fatalFlag : (s.mapEnv f).fatalFlag = s.fatalFlag := rfl
@[simp] theorem mapEnv_cancelled : (s.mapEnv f).cancelled = s.cancelled := rfl
@[simp] theorem mapEnv_cause : (s.mapEnv f).cause = s.cause := rfl
@[simp] theorem mapEnv_waiting : (s.mapEnv f).waiting = s.waiting := rfl
@[simp] theorem mapEnv_env : (s.mapEnv f).env = f s.env := rfl
@[simp] theorem mapEnv_hist : (s.mapEnv f).hist = s.hist := rfl
@[simp] theorem mapEnv_inputs : (s.mapEnv f).inputs = s.inputs := rfl
@[simp] theorem mapEnv_out : (s.mapEnv f).out = s.out := rfl
end

section
variable (s : State) (v : Value)
@[simp] theorem present_p : (s.present v).p = s.p := rfl
@[simp] theorem present_written : (s.present v).written = s.written := rfl
@[simp] theorem present_ovr : (s.present v).ovr = s.ovr := rfl
@[simp] theorem present_phase : (s.present v).phase = s.phase := rfl
@[simp] theorem present_iter : (s.present v).iter = s.iter := rfl
@[simp] theorem present_rep : (s.present v).rep = s.rep := rfl
@[simp] theorem present_qidx : (s.present v).qidx = s.qidx := rfl
@[simp] theorem present_tu : (s.present v).tu = s.tu := rfl
@[simp] theorem present_tuf : (s.present v).tuf = s.tuf := rfl
@[simp] theorem present_t0 : (s.present v).t0 = s.t0 := rfl
@[simp] theorem present_line : (s.present v).line = s.line := rfl
@[simp] theorem present_busy : (s.present v).busy = s.busy := rfl
@[simp] theorem present_doneFlag : (s.present v).doneFlag = s.doneFlag := rfl
@[simp] theorem present_fatalFlag : (s.present v).fatalFlag = s.fatalFlag := rfl
@[simp] theorem present_cancelled : (s.present v).cancelled = s.cancelled := rfl
@[simp] theorem present_cause : (s.present v).cause = s.cause := rfl
@[simp] theorem present_waiting : (s.present v).waiting = s.waiting := rfl
@[simp] theorem present_env : (s.present v).env = s.env := rfl
@[simp] theorem present_hist : (s.present v).hist = s.hist := rfl
@[simp] theorem present_inputs : (s.present v).inputs = s.inputs := rfl
@[simp] theorem present_out : (s.present v).out = v := rfl
end

section
variable (s : State) (v : Micros)
@[simp] theorem writeTU_p : (s.writeTU v).p = s.p := rfl
@[simp] theorem writeTU_written : (s.writeTU v).written = s.written := rfl
@[simp] theorem writeTU_ovr : (s.writeTU v).ovr = s.ovr := rfl
@[simp] theorem writeTU_phase : (s.writeTU v).phase = s.phase := rfl
@[simp] theorem writeTU_iter : (s.writeTU v).iter = s.iter := rfl
@[simp] theorem writeTU_rep : (s.writeTU v).rep = s.rep := rfl
@[simp] theorem writeTU_qidx : (s.writeTU v).qidx = s.qidx := rfl
@[simp] theorem writeTU_tu : (s.writeTU v).tu = (if s.tuf then s.tu else v) := rfl
@[simp] theorem writeTU_tuf : (s.writeTU v).tuf = s.tuf := rfl
@[simp] theorem writeTU_t0 : (s.writeTU v).t0 = s.t0 := rfl
@[simp] theorem writeTU_line : (s.writeTU v).line = s.line := rfl
@[simp] theorem writeTU_busy : (s.writeTU v).busy = s.busy := rfl
@[simp] theorem writeTU_doneFlag : (s.writeTU v).doneFlag = s.doneFlag := rfl
@[simp] theorem writeTU_fatalFlag : (s.writeTU v).fatalFlag = s.fatalFlag := rfl
@[simp] theorem writeTU_cancelled : (s.writeTU v).cancelled = s.cancelled := rfl
@[simp] theorem writeTU_cause : (s.writeTU v).cause = s.cause := rfl
@[simp] theorem writeTU_waiting : (s.writeTU v).waiting = s.waiting := rfl
@[simp] theorem writeTU_env : (s.writeTU v).env = s.env := rfl
@[simp] theorem writeTU_hist : (s.writeTU v).hist = s.hist := rfl
@[simp] theorem writeTU_inputs : (s.writeTU v).inputs = s.inputs := rfl
@[simp] theorem writeTU_out : (s.writeTU v).out = s.out := rfl
end

section
variable (s : State) (l : Level)
@[simp] theorem driveLine_p : (s.driveLine l).p = s.p := rfl
@[simp] theorem driveLine_written : (s.driveLine l).written = s.written := rfl
@[simp] theorem driveLine_ovr : (s.driveLine l).ovr = s.ovr := rfl
@[simp] theorem driveLine_phase : (s.driveLine l).phase = s.phase := rfl
@[simp] theorem driveLine_iter : (s.driveLine l).iter = s.iter := rfl
@[simp] theorem driveLine_rep : (s.driveLine l).rep = s.rep := rfl
@[simp] theorem driveLine_qidx : (s.driveLine l).qidx = s.qidx := rfl
@[simp] theorem driveLine_tu : (s.driveLine l).tu = s.tu := rfl
@[simp] theorem driveLine_tuf : (s.driveLine l).tuf = s.tuf := rfl
@[simp] theorem driveLine_t0 : (s.driveLine l).t0 = s.t0 := rfl
@[simp] theorem driveLine_line : (s.driveLine l).line = l := rfl
@[simp] theorem driveLine_busy : (s.driveLine l).busy = s.busy := rfl
@[simp] theorem driveLine_doneFlag : (s.driveLine l).doneFlag = s.doneFlag := rfl
@[simp] theorem driveLine_fatalFlag : (s.driveLine l).fatalFlag = s.fatalFlag := rfl
@[simp] theorem driveLine_cancelled : (s.driveLine l).cancelled = s.cancelled := rfl
@[simp] theorem driveLine_cause : (s.driveLine l).cause = s.cause := rfl
@[simp] theorem driveLine_waiting : (s.driveLine l).waiting = s.waiting := rfl
@[simp] theorem driveLine_env : (s.driveLine l).env = s.env.setPin l := rfl
@[simp] theorem driveLine_hist : (s.driveLine l).hist = s.hist := rfl
@[simp] theorem driveLine_inputs : (s.driveLine l).inputs = s.inputs := rfl
@[simp] theorem driveLine_out : (s.driveLine l).out = s.out := rfl
end

section
variable (s : State) (tu : Micros)
@[simp] theorem hang_p : (s.hang tu).p = s.p := rfl
@[simp] theorem hang_written : (s.hang tu).written = s.written := rfl
@[simp] theorem hang_ovr : (s.hang tu).ovr = s.ovr := rfl
@[simp] theorem hang_phase : (s.hang tu).phase = s.phase := rfl
@[simp] theorem hang_iter : (s.hang tu).iter = s.iter := rfl
@[simp] theorem hang_rep : (s.hang tu).rep = s.rep := rfl
@[simp] theorem hang_qidx : (s.hang tu).qidx = s.qidx := rfl
@[simp] theorem hang_tu : (s.hang tu).tu = s.tu := rfl
@[simp] theorem hang_tuf : (s.hang tu).tuf = s.tuf := rfl
@[simp] theorem hang_t0 : (s.hang tu).t0 = s.t0 := rfl
@[simp] theorem hang_line : (s.hang tu).line = s.line := rfl
@[simp] theorem hang_busy : (s.hang tu).busy = s.busy := rfl
@[simp] theorem hang_doneFlag : (s.hang tu).doneFlag = s.doneFlag := rfl
@[simp] theorem hang_fatalFlag : (s.hang tu).fatalFlag = s.fatalFlag := rfl
@[simp] theorem hang_cancelled : (s.hang tu).cancelled = s.cancelled := rfl
@[simp] theorem hang_cause : (s.hang tu).cause = s.cause := rfl
@[simp] theorem hang_waiting : (s.hang tu).waiting = some tu := rfl
@[simp] theorem hang_env : (s.hang tu).env = s.env := rfl
@[simp] theorem hang_hist : (s.hang tu).hist = s.hist := rfl
@[simp] theorem hang_inputs : (s.hang tu).inputs = s.inputs := rfl
@[simp] theorem hang_out : (s.hang tu).out = s.out := rfl
end

section
variable (s : State) (n : BitVec 4)
@[simp] theorem setIter_p : (s.setIter n).p = s.p := rfl
@[simp] theorem setIter_written : (s.setIter n).written = s.written := rfl
@[simp] theorem setIter_ovr : (s.setIter n).ovr = s.ovr := rfl
@[simp] theorem setIter_phase : (s.setIter n).phase = s.phase := rfl
@[simp] theorem setIter_iter : (s.setIter n).iter = n := rfl
@[simp] theorem setIter_rep : (s.setIter n).rep = s.rep := rfl
@[simp] theorem setIter_qidx : (s.setIter n).qidx = s.qidx := rfl
@[simp] theorem setIter_tu : (s.setIter n).tu = s.tu := rfl
@[simp] theorem setIter_tuf : (s.setIter n).tuf = s.tuf := rfl
@[simp] theorem setIter_t0 : (s.setIter n).t0 = s.t0 := rfl
@[simp] theorem setIter_line : (s.setIter n).line = s.line := rfl
@[simp] theorem setIter_busy : (s.setIter n).busy = s.busy := rfl
@[simp] theorem setIter_doneFlag : (s.setIter n).doneFlag = s.doneFlag := rfl
@[simp] theorem setIter_fatalFlag : (s.setIter n).fatalFlag = s.fatalFlag := rfl
@[simp] theorem setIter_cancelled : (s.setIter n).cancelled = s.cancelled := rfl
@[simp] theorem setIter_cause : (s.setIter n).cause = s.cause := rfl
@[simp] theorem setIter_waiting : (s.setIter n).waiting = s.waiting := rfl
@[simp] theorem setIter_env : (s.setIter n).env = s.env := rfl
@[simp] theorem setIter_hist : (s.setIter n).hist = s.hist := rfl
@[simp] theorem setIter_inputs : (s.setIter n).inputs = s.inputs := rfl
@[simp] theorem setIter_out : (s.setIter n).out = s.out := rfl
end

section
variable (s : State) (n : RepeatCount)
@[simp] theorem setRep_p : (s.setRep n).p = s.p := rfl
@[simp] theorem setRep_written : (s.setRep n).written = s.written := rfl
@[simp] theorem setRep_ovr : (s.setRep n).ovr = s.ovr := rfl
@[simp] theorem setRep_phase : (s.setRep n).phase = s.phase := rfl
@[simp] theorem setRep_iter : (s.setRep n).iter = s.iter := rfl
@[simp] theorem setRep_rep : (s.setRep n).rep = n := rfl
@[simp] theorem setRep_qidx : (s.setRep n).qidx = s.qidx := rfl
@[simp] theorem setRep_tu : (s.setRep n).tu = s.tu := rfl
@[simp] theorem setRep_tuf : (s.setRep n).tuf = s.tuf := rfl
@[simp] theorem setRep_t0 : (s.setRep n).t0 = s.t0 := rfl
@[simp] theorem setRep_line : (s.setRep n).line = s.line := rfl
@[simp] theorem setRep_busy : (s.setRep n).busy = s.busy := rfl
@[simp] theorem setRep_doneFlag : (s.setRep n).doneFlag = s.doneFlag := rfl
@[simp] theorem setRep_fatalFlag : (s.setRep n).fatalFlag = s.fatalFlag := rfl
@[simp] theorem setRep_cancelled : (s.setRep n).cancelled = s.cancelled := rfl
@[simp] theorem setRep_cause : (s.setRep n).cause = s.cause := rfl
@[simp] theorem setRep_waiting : (s.setRep n).waiting = s.waiting := rfl
@[simp] theorem setRep_env : (s.setRep n).env = s.env := rfl
@[simp] theorem setRep_hist : (s.setRep n).hist = s.hist := rfl
@[simp] theorem setRep_inputs : (s.setRep n).inputs = s.inputs := rfl
@[simp] theorem setRep_out : (s.setRep n).out = s.out := rfl
end

section
variable (s : State) (n : BitVec 8)
@[simp] theorem setQidx_p : (s.setQidx n).p = s.p := rfl
@[simp] theorem setQidx_written : (s.setQidx n).written = s.written := rfl
@[simp] theorem setQidx_ovr : (s.setQidx n).ovr = s.ovr := rfl
@[simp] theorem setQidx_phase : (s.setQidx n).phase = s.phase := rfl
@[simp] theorem setQidx_iter : (s.setQidx n).iter = s.iter := rfl
@[simp] theorem setQidx_rep : (s.setQidx n).rep = s.rep := rfl
@[simp] theorem setQidx_qidx : (s.setQidx n).qidx = n := rfl
@[simp] theorem setQidx_tu : (s.setQidx n).tu = s.tu := rfl
@[simp] theorem setQidx_tuf : (s.setQidx n).tuf = s.tuf := rfl
@[simp] theorem setQidx_t0 : (s.setQidx n).t0 = s.t0 := rfl
@[simp] theorem setQidx_line : (s.setQidx n).line = s.line := rfl
@[simp] theorem setQidx_busy : (s.setQidx n).busy = s.busy := rfl
@[simp] theorem setQidx_doneFlag : (s.setQidx n).doneFlag = s.doneFlag := rfl
@[simp] theorem setQidx_fatalFlag : (s.setQidx n).fatalFlag = s.fatalFlag := rfl
@[simp] theorem setQidx_cancelled : (s.setQidx n).cancelled = s.cancelled := rfl
@[simp] theorem setQidx_cause : (s.setQidx n).cause = s.cause := rfl
@[simp] theorem setQidx_waiting : (s.setQidx n).waiting = s.waiting := rfl
@[simp] theorem setQidx_env : (s.setQidx n).env = s.env := rfl
@[simp] theorem setQidx_hist : (s.setQidx n).hist = s.hist := rfl
@[simp] theorem setQidx_inputs : (s.setQidx n).inputs = s.inputs := rfl
@[simp] theorem setQidx_out : (s.setQidx n).out = s.out := rfl
end

section
variable (s : State) (t : Nanos)
@[simp] theorem setT0_p : (s.setT0 t).p = s.p := rfl
@[simp] theorem setT0_written : (s.setT0 t).written = s.written := rfl
@[simp] theorem setT0_ovr : (s.setT0 t).ovr = s.ovr := rfl
@[simp] theorem setT0_phase : (s.setT0 t).phase = s.phase := rfl
@[simp] theorem setT0_iter : (s.setT0 t).iter = s.iter := rfl
@[simp] theorem setT0_rep : (s.setT0 t).rep = s.rep := rfl
@[simp] theorem setT0_qidx : (s.setT0 t).qidx = s.qidx := rfl
@[simp] theorem setT0_tu : (s.setT0 t).tu = s.tu := rfl
@[simp] theorem setT0_tuf : (s.setT0 t).tuf = s.tuf := rfl
@[simp] theorem setT0_t0 : (s.setT0 t).t0 = t := rfl
@[simp] theorem setT0_line : (s.setT0 t).line = s.line := rfl
@[simp] theorem setT0_busy : (s.setT0 t).busy = s.busy := rfl
@[simp] theorem setT0_doneFlag : (s.setT0 t).doneFlag = s.doneFlag := rfl
@[simp] theorem setT0_fatalFlag : (s.setT0 t).fatalFlag = s.fatalFlag := rfl
@[simp] theorem setT0_cancelled : (s.setT0 t).cancelled = s.cancelled := rfl
@[simp] theorem setT0_cause : (s.setT0 t).cause = s.cause := rfl
@[simp] theorem setT0_waiting : (s.setT0 t).waiting = s.waiting := rfl
@[simp] theorem setT0_env : (s.setT0 t).env = s.env := rfl
@[simp] theorem setT0_hist : (s.setT0 t).hist = s.hist := rfl
@[simp] theorem setT0_inputs : (s.setT0 t).inputs = s.inputs := rfl
@[simp] theorem setT0_out : (s.setT0 t).out = s.out := rfl
end

section
variable (s : State) (q : Params) (o : Micros)
@[simp] theorem loadParams_p : (s.loadParams q o).p = q := rfl
@[simp] theorem loadParams_written : (s.loadParams q o).written = true := rfl
@[simp] theorem loadParams_ovr : (s.loadParams q o).ovr = o := rfl
@[simp] theorem loadParams_phase : (s.loadParams q o).phase = s.phase := rfl
@[simp] theorem loadParams_iter : (s.loadParams q o).iter = s.iter := rfl
@[simp] theorem loadParams_rep : (s.loadParams q o).rep = s.rep := rfl
@[simp] theorem loadParams_qidx : (s.loadParams q o).qidx = s.qidx := rfl
@[simp] theorem loadParams_tu : (s.loadParams q o).tu = s.tu := rfl
@[simp] theorem loadParams_tuf : (s.loadParams q o).tuf = s.tuf := rfl
@[simp] theorem loadParams_t0 : (s.loadParams q o).t0 = s.t0 := rfl
@[simp] theorem loadParams_line : (s.loadParams q o).line = s.line := rfl
@[simp] theorem loadParams_busy : (s.loadParams q o).busy = s.busy := rfl
@[simp] theorem loadParams_doneFlag : (s.loadParams q o).doneFlag = s.doneFlag := rfl
@[simp] theorem loadParams_fatalFlag : (s.loadParams q o).fatalFlag = s.fatalFlag := rfl
@[simp] theorem loadParams_cancelled : (s.loadParams q o).cancelled = s.cancelled := rfl
@[simp] theorem loadParams_cause : (s.loadParams q o).cause = s.cause := rfl
@[simp] theorem loadParams_waiting : (s.loadParams q o).waiting = s.waiting := rfl
@[simp] theorem loadParams_env : (s.loadParams q o).env = s.env := rfl
@[simp] theorem loadParams_hist : (s.loadParams q o).hist = s.hist := rfl
@[simp] theorem loadParams_inputs : (s.loadParams q o).inputs = s.inputs := rfl
@[simp] theorem loadParams_out : (s.loadParams q o).out = s.out := rfl
end

section
variable (s : State) (c : Cause)
@[simp] theorem takeFault_p : (s.takeFault c).p = s.p := rfl
@[simp] theorem takeFault_written : (s.takeFault c).written = s.written := rfl
@[simp] theorem takeFault_ovr : (s.takeFault c).ovr = s.ovr := rfl
@[simp] theorem takeFault_phase : (s.takeFault c).phase = .fatal := rfl
@[simp] theorem takeFault_iter : (s.takeFault c).iter = s.iter := rfl
@[simp] theorem takeFault_rep : (s.takeFault c).rep = s.rep := rfl
@[simp] theorem takeFault_qidx : (s.takeFault c).qidx = s.qidx := rfl
@[simp] theorem takeFault_tu : (s.takeFault c).tu = s.tu := rfl
@[simp] theorem takeFault_tuf : (s.takeFault c).tuf = s.tuf := rfl
@[simp] theorem takeFault_t0 : (s.takeFault c).t0 = s.t0 := rfl
@[simp] theorem takeFault_line : (s.takeFault c).line = s.line := rfl
@[simp] theorem takeFault_busy : (s.takeFault c).busy = false := rfl
@[simp] theorem takeFault_doneFlag : (s.takeFault c).doneFlag = s.doneFlag := rfl
@[simp] theorem takeFault_fatalFlag : (s.takeFault c).fatalFlag = true := rfl
@[simp] theorem takeFault_cancelled : (s.takeFault c).cancelled = s.cancelled := rfl
@[simp] theorem takeFault_cause : (s.takeFault c).cause = causeCode c := rfl
@[simp] theorem takeFault_waiting : (s.takeFault c).waiting = s.waiting := rfl
@[simp] theorem takeFault_env : (s.takeFault c).env = s.env := rfl
@[simp] theorem takeFault_hist : (s.takeFault c).hist = .fault c :: s.hist := rfl
@[simp] theorem takeFault_inputs : (s.takeFault c).inputs = s.inputs := rfl
@[simp] theorem takeFault_out : (s.takeFault c).out = s.out := rfl
end

section
variable (s : State)
@[simp] theorem clockRead_p : (s.clockRead).p = s.p := rfl
@[simp] theorem clockRead_written : (s.clockRead).written = s.written := rfl
@[simp] theorem clockRead_ovr : (s.clockRead).ovr = s.ovr := rfl
@[simp] theorem clockRead_phase : (s.clockRead).phase = s.phase := rfl
@[simp] theorem clockRead_iter : (s.clockRead).iter = s.iter := rfl
@[simp] theorem clockRead_rep : (s.clockRead).rep = s.rep := rfl
@[simp] theorem clockRead_qidx : (s.clockRead).qidx = s.qidx := rfl
@[simp] theorem clockRead_tu : (s.clockRead).tu = s.tu := rfl
@[simp] theorem clockRead_tuf : (s.clockRead).tuf = s.tuf := rfl
@[simp] theorem clockRead_t0 : (s.clockRead).t0 = s.t0 := rfl
@[simp] theorem clockRead_line : (s.clockRead).line = s.line := rfl
@[simp] theorem clockRead_busy : (s.clockRead).busy = s.busy := rfl
@[simp] theorem clockRead_doneFlag : (s.clockRead).doneFlag = s.doneFlag := rfl
@[simp] theorem clockRead_fatalFlag : (s.clockRead).fatalFlag = s.fatalFlag := rfl
@[simp] theorem clockRead_cancelled : (s.clockRead).cancelled = s.cancelled := rfl
@[simp] theorem clockRead_cause : (s.clockRead).cause = s.cause := rfl
@[simp] theorem clockRead_waiting : (s.clockRead).waiting = s.waiting := rfl
@[simp] theorem clockRead_env : (s.clockRead).env = (s.env.advance s.env.nextDrift).tookDrift := rfl
@[simp] theorem clockRead_hist : (s.clockRead).hist = .clock s.clockNext :: s.hist := rfl
@[simp] theorem clockRead_inputs : (s.clockRead).inputs = s.inputs := rfl
@[simp] theorem clockRead_out : (s.clockRead).out = s.out := rfl
end

section
variable (s : State)
@[simp] theorem cancelRead_p : (s.cancelRead).p = s.p := rfl
@[simp] theorem cancelRead_written : (s.cancelRead).written = s.written := rfl
@[simp] theorem cancelRead_ovr : (s.cancelRead).ovr = s.ovr := rfl
@[simp] theorem cancelRead_phase : (s.cancelRead).phase = s.phase := rfl
@[simp] theorem cancelRead_iter : (s.cancelRead).iter = s.iter := rfl
@[simp] theorem cancelRead_rep : (s.cancelRead).rep = s.rep := rfl
@[simp] theorem cancelRead_qidx : (s.cancelRead).qidx = s.qidx := rfl
@[simp] theorem cancelRead_tu : (s.cancelRead).tu = s.tu := rfl
@[simp] theorem cancelRead_tuf : (s.cancelRead).tuf = s.tuf := rfl
@[simp] theorem cancelRead_t0 : (s.cancelRead).t0 = s.t0 := rfl
@[simp] theorem cancelRead_line : (s.cancelRead).line = s.line := rfl
@[simp] theorem cancelRead_busy : (s.cancelRead).busy = s.busy := rfl
@[simp] theorem cancelRead_doneFlag : (s.cancelRead).doneFlag = s.doneFlag := rfl
@[simp] theorem cancelRead_fatalFlag : (s.cancelRead).fatalFlag = s.fatalFlag := rfl
@[simp] theorem cancelRead_cancelled : (s.cancelRead).cancelled = s.cancelled := rfl
@[simp] theorem cancelRead_cause : (s.cancelRead).cause = s.cause := rfl
@[simp] theorem cancelRead_waiting : (s.cancelRead).waiting = s.waiting := rfl
@[simp] theorem cancelRead_env : (s.cancelRead).env = s.env.tookCancel := rfl
@[simp] theorem cancelRead_hist : (s.cancelRead).hist = .cancel s.env.nextCancel :: s.hist := rfl
@[simp] theorem cancelRead_inputs : (s.cancelRead).inputs = s.inputs := rfl
@[simp] theorem cancelRead_out : (s.cancelRead).out = s.out := rfl
end

section
variable (s : State)
@[simp] theorem moveOn_p : (s.moveOn).p = s.p := rfl
@[simp] theorem moveOn_written : (s.moveOn).written = s.written := rfl
@[simp] theorem moveOn_ovr : (s.moveOn).ovr = s.ovr := rfl
@[simp] theorem moveOn_phase : (s.moveOn).phase = s.phase := rfl
@[simp] theorem moveOn_iter : (s.moveOn).iter = s.iter := rfl
@[simp] theorem moveOn_rep : (s.moveOn).rep = s.rep := rfl
@[simp] theorem moveOn_qidx : (s.moveOn).qidx = s.qidx := rfl
@[simp] theorem moveOn_tu : (s.moveOn).tu = s.tu := rfl
@[simp] theorem moveOn_tuf : (s.moveOn).tuf = s.tuf := rfl
@[simp] theorem moveOn_t0 : (s.moveOn).t0 = s.t0 := rfl
@[simp] theorem moveOn_line : (s.moveOn).line = s.line := rfl
@[simp] theorem moveOn_busy : (s.moveOn).busy = s.busy := rfl
@[simp] theorem moveOn_doneFlag : (s.moveOn).doneFlag = s.doneFlag := rfl
@[simp] theorem moveOn_fatalFlag : (s.moveOn).fatalFlag = s.fatalFlag := rfl
@[simp] theorem moveOn_cancelled : (s.moveOn).cancelled = s.cancelled := rfl
@[simp] theorem moveOn_cause : (s.moveOn).cause = s.cause := rfl
@[simp] theorem moveOn_waiting : (s.moveOn).waiting = s.waiting := rfl
@[simp] theorem moveOn_env : (s.moveOn).env = s.env := rfl
@[simp] theorem moveOn_hist : (s.moveOn).hist = s.hist := rfl
@[simp] theorem moveOn_inputs : (s.moveOn).inputs = s.inputs.tail := rfl
@[simp] theorem moveOn_out : (s.moveOn).out = s.out := rfl
end

section
variable (s : State) (x : HostInput)
@[simp] theorem withInput_p : (s.withInput x).p = s.p := rfl
@[simp] theorem withInput_written : (s.withInput x).written = s.written := rfl
@[simp] theorem withInput_ovr : (s.withInput x).ovr = s.ovr := rfl
@[simp] theorem withInput_phase : (s.withInput x).phase = s.phase := rfl
@[simp] theorem withInput_iter : (s.withInput x).iter = s.iter := rfl
@[simp] theorem withInput_rep : (s.withInput x).rep = s.rep := rfl
@[simp] theorem withInput_qidx : (s.withInput x).qidx = s.qidx := rfl
@[simp] theorem withInput_tu : (s.withInput x).tu = s.tu := rfl
@[simp] theorem withInput_tuf : (s.withInput x).tuf = s.tuf := rfl
@[simp] theorem withInput_t0 : (s.withInput x).t0 = s.t0 := rfl
@[simp] theorem withInput_line : (s.withInput x).line = s.line := rfl
@[simp] theorem withInput_busy : (s.withInput x).busy = s.busy := rfl
@[simp] theorem withInput_doneFlag : (s.withInput x).doneFlag = s.doneFlag := rfl
@[simp] theorem withInput_fatalFlag : (s.withInput x).fatalFlag = s.fatalFlag := rfl
@[simp] theorem withInput_cancelled : (s.withInput x).cancelled = s.cancelled := rfl
@[simp] theorem withInput_cause : (s.withInput x).cause = s.cause := rfl
@[simp] theorem withInput_waiting : (s.withInput x).waiting = s.waiting := rfl
@[simp] theorem withInput_env : (s.withInput x).env = s.env := rfl
@[simp] theorem withInput_hist : (s.withInput x).hist = s.hist := rfl
@[simp] theorem withInput_inputs : (s.withInput x).inputs = x :: s.inputs := rfl
@[simp] theorem withInput_out : (s.withInput x).out = s.out := rfl
end

section
variable (e : Env)
@[simp] theorem env_tookSink_now : (e.tookSink).now = e.now := rfl
@[simp] theorem env_tookSink_sink : (e.tookSink).sink = e.sink.tail := rfl
@[simp] theorem env_tookSink_cancel : (e.tookSink).cancel = e.cancel := rfl
@[simp] theorem env_tookSink_waits : (e.tookSink).waits = e.waits := rfl
@[simp] theorem env_tookSink_drift : (e.tookSink).drift = e.drift := rfl
@[simp] theorem env_tookSink_pin : (e.tookSink).pin = e.pin := rfl
@[simp] theorem env_tookSink_draws : (e.tookSink).draws = drawsAfter e.sink e.draws := rfl
end

section
variable (e : Env)
@[simp] theorem env_tookCancel_now : (e.tookCancel).now = e.now := rfl
@[simp] theorem env_tookCancel_sink : (e.tookCancel).sink = e.sink := rfl
@[simp] theorem env_tookCancel_cancel : (e.tookCancel).cancel = e.cancel.tail := rfl
@[simp] theorem env_tookCancel_waits : (e.tookCancel).waits = e.waits := rfl
@[simp] theorem env_tookCancel_drift : (e.tookCancel).drift = e.drift := rfl
@[simp] theorem env_tookCancel_pin : (e.tookCancel).pin = e.pin := rfl
@[simp] theorem env_tookCancel_draws : (e.tookCancel).draws = drawsAfter e.cancel e.draws := rfl
end

section
variable (e : Env)
@[simp] theorem env_tookWait_now : (e.tookWait).now = e.now := rfl
@[simp] theorem env_tookWait_sink : (e.tookWait).sink = e.sink := rfl
@[simp] theorem env_tookWait_cancel : (e.tookWait).cancel = e.cancel := rfl
@[simp] theorem env_tookWait_waits : (e.tookWait).waits = e.waits.tail := rfl
@[simp] theorem env_tookWait_drift : (e.tookWait).drift = e.drift := rfl
@[simp] theorem env_tookWait_pin : (e.tookWait).pin = e.pin := rfl
@[simp] theorem env_tookWait_draws : (e.tookWait).draws = drawsAfter e.waits e.draws := rfl
end

section
variable (e : Env)
@[simp] theorem env_tookDrift_now : (e.tookDrift).now = e.now := rfl
@[simp] theorem env_tookDrift_sink : (e.tookDrift).sink = e.sink := rfl
@[simp] theorem env_tookDrift_cancel : (e.tookDrift).cancel = e.cancel := rfl
@[simp] theorem env_tookDrift_waits : (e.tookDrift).waits = e.waits := rfl
@[simp] theorem env_tookDrift_drift : (e.tookDrift).drift = e.drift.tail := rfl
@[simp] theorem env_tookDrift_pin : (e.tookDrift).pin = e.pin := rfl
@[simp] theorem env_tookDrift_draws : (e.tookDrift).draws = drawsAfter e.drift e.draws := rfl
end

section
variable (e : Env) (d : Nat)
@[simp] theorem env_advance_now : (e.advance d).now = e.now + d := rfl
@[simp] theorem env_advance_sink : (e.advance d).sink = e.sink := rfl
@[simp] theorem env_advance_cancel : (e.advance d).cancel = e.cancel := rfl
@[simp] theorem env_advance_waits : (e.advance d).waits = e.waits := rfl
@[simp] theorem env_advance_drift : (e.advance d).drift = e.drift := rfl
@[simp] theorem env_advance_pin : (e.advance d).pin = e.pin := rfl
@[simp] theorem env_advance_draws : (e.advance d).draws = e.draws := rfl
end

section
variable (e : Env) (l : Level)
@[simp] theorem env_setPin_now : (e.setPin l).now = e.now := rfl
@[simp] theorem env_setPin_sink : (e.setPin l).sink = e.sink := rfl
@[simp] theorem env_setPin_cancel : (e.setPin l).cancel = e.cancel := rfl
@[simp] theorem env_setPin_waits : (e.setPin l).waits = e.waits := rfl
@[simp] theorem env_setPin_drift : (e.setPin l).drift = e.drift := rfl
@[simp] theorem env_setPin_pin : (e.setPin l).pin = l := rfl
@[simp] theorem env_setPin_draws : (e.setPin l).draws = e.draws := rfl
end

section
variable (e : Env)
@[simp] theorem env_freePin_now : (e.freePin).now = e.now := rfl
@[simp] theorem env_freePin_sink : (e.freePin).sink = e.sink := rfl
@[simp] theorem env_freePin_cancel : (e.freePin).cancel = e.cancel := rfl
@[simp] theorem env_freePin_waits : (e.freePin).waits = e.waits := rfl
@[simp] theorem env_freePin_drift : (e.freePin).drift = e.drift := rfl
@[simp] theorem env_freePin_pin : (e.freePin).pin = Config.pinLevel e.draws := rfl
@[simp] theorem env_freePin_draws : (e.freePin).draws = e.draws + 1 := rfl
end

/-! ### The next answers, where they are supplied -/

@[simp] theorem nextSink_cons {e : Env} {b : Bool} {l : List Bool} (h : e.sink = b :: l) : e.nextSink = b := by
  simp [Env.nextSink, h]
@[simp] theorem nextCancel_cons {e : Env} {b : Bool} {l : List Bool} (h : e.cancel = b :: l) : e.nextCancel = b := by
  simp [Env.nextCancel, h]
@[simp] theorem nextWait_cons {e : Env} {a : WaitAnswer} {l : List WaitAnswer} (h : e.waits = a :: l) :
    e.nextWait = a := by
  simp [Env.nextWait, h]
@[simp] theorem nextDrift_cons {e : Env} {d : Nat} {l : List Nat} (h : e.drift = d :: l) : e.nextDrift = d := by
  simp [Env.nextDrift, h]
@[simp] theorem drawsAfter_cons {α : Type} (a : α) (l : List α) (n : Nat) : drawsAfter (a :: l) n = n := rfl

/-! ### The active parameters depend on PHASE and P only (10_state.md R30) -/

theorem active_congr {s t : State} (hphase : t.phase = s.phase) (hp : t.p = s.p) : t.active = s.active := by
  unfold State.active
  rw [hphase, hp]

theorem active_of_cal {s : State} (h : s.phase = .cal) : s.active = calParams := by
  simp [State.active, h]

theorem active_of_tx {s : State} (h : s.phase = .tx) : s.active = s.p := by
  simp [State.active, h]

end Sys2Proof.Machine
end

