-- ==== Sys2Proof/Laws/Ops.lean ====
section
/-! SUPPORT. One lemma for each shared operation that says once everything it can do: how operations are sequenced, the
four ends of a slot, what a repetition's end and the calibrator's steps do. Later proofs cite these and unfold nothing. -/

namespace Sys2Proof.Machine

/-! ### The widths of 00_scope.md R8 as numbers -/

@[simp] theorem two_pow_repeatW : 2 ^ Config.repeatW = 65536 := rfl
@[simp] theorem two_pow_tuW : 2 ^ Config.tuW = 4294967296 := rfl
@[simp] theorem two_pow_clkW : 2 ^ Config.clkW = 18446744073709551616 := rfl

/-! ### Sequencing -/

section
variable {α β : Type}

@[simp] theorem Res.andThen_ok (a : α) (s : State) (k : α → State → Res β) : (Res.ok a s).andThen k = k a s := rfl
@[simp] theorem Res.andThen_cut (s : State) (k : α → State → Res β) : (Res.cut s).andThen k = .cut s := rfl
@[simp] theorem Res.andThen_stuck (f : Fault) (k : α → State → Res β) : (Res.stuck f).andThen k = .stuck f := rfl
@[simp] theorem Res.andThen_refused (r : Refusal) (k : α → State → Res β) : (Res.refused r).andThen k = .refused r := rfl
@[simp] theorem Res.outcome_ok (a : α) (s : State) : (Res.ok a s).outcome = .next s := rfl
@[simp] theorem Res.outcome_cut (s : State) : (Res.cut s : Res α).outcome = .next s := rfl
@[simp] theorem Res.outcome_stuck (f : Fault) : (Res.stuck f : Res α).outcome = .fault f := rfl
@[simp] theorem Res.outcome_refused (r : Refusal) : (Res.refused r : Res α).outcome = .refused r := rfl

theorem Res.andThen_assoc {γ : Type} (r : Res α) (k : α → State → Res β) (l : β → State → Res γ) :
    (r.andThen k).andThen l = r.andThen fun a s => (k a s).andThen l := by
  cases r <;> rfl

/-- What an operation's end satisfies: `P` of the result and the state where it completed, `Q` of the state where it was cut
(a fault taken, or a wait that never ends); nothing is said where no rule applies or the model offers no move. -/
def Res.Ends (P : α → State → Prop) (Q : State → Prop) : Res α → Prop
  | .ok a s => P a s
  | .cut s => Q s
  | .stuck _ => True
  | .refused _ => True

@[simp] theorem Res.ends_ok (P : α → State → Prop) (Q : State → Prop) (a : α) (s : State) :
    (Res.ok a s).Ends P Q ↔ P a s := Iff.rfl
@[simp] theorem Res.ends_cut (P : α → State → Prop) (Q : State → Prop) (s : State) :
    (Res.cut s).Ends P Q ↔ Q s := Iff.rfl
@[simp] theorem Res.ends_stuck (P : α → State → Prop) (Q : State → Prop) (f : Fault) : (Res.stuck f).Ends P Q := trivial
@[simp] theorem Res.ends_refused (P : α → State → Prop) (Q : State → Prop) (r : Refusal) :
    (Res.refused r).Ends P Q := trivial

/-- The rule of sequencing. -/
theorem Res.Ends.andThen {P : α → State → Prop} {Q : State → Prop} {P' : β → State → Prop} {r : Res α}
    {k : α → State → Res β} (h : r.Ends P Q) (hk : ∀ a s, P a s → (k a s).Ends P' Q) : (r.andThen k).Ends P' Q := by
  cases r with
  | ok a s => exact hk a s h
  | cut s => exact h
  | stuck f => trivial
  | refused r => trivial

theorem Res.Ends.mono {P P' : α → State → Prop} {Q Q' : State → Prop} {r : Res α} (h : r.Ends P Q)
    (hP : ∀ a s, P a s → P' a s) (hQ : ∀ s, Q s → Q' s) : r.Ends P' Q' := by
  cases r with
  | ok a s => exact hP a s h
  | cut s => exact hQ s h
  | stuck f => trivial
  | refused r => trivial

/-- A next state is where the operation completed or where it was cut. -/
theorem Res.Ends.next {P : α → State → Prop} {Q : State → Prop} {r : Res α} {t : State} (h : r.Ends P Q)
    (ht : r.outcome = .next t) : (∃ a, P a t) ∨ Q t := by
  cases r with
  | ok a s => exact .inl ⟨a, by cases ht; exact h⟩
  | cut s => exact .inr (by cases ht; exact h)
  | stuck f => cases ht
  | refused r => cases ht

end

theorem whenSelected_next {c : Bool} {o : Host.Outcome State Fault Refusal} {t : State}
    (h : whenSelected c o = .next t) : c = true ∧ o = .next t := by
  cases c with
  | true => exact ⟨rfl, h⟩
  | false => cases h

@[simp] theorem whenSelected_true (o : Host.Outcome State Fault Refusal) : whenSelected true o = o := rfl
@[simp] theorem whenSelected_false (o : Host.Outcome State Fault Refusal) :
    whenSelected false o = .refused .notSelected := rfl

/-! ### One slot -/

/-- The state after a slot whose commit succeeded and whose wait took `x` ns more than asked. -/
def slotDone (w : LogicalWord) (x : Nat) (s : State) : State :=
  ((((((s.mapEnv Env.tookSink).driveLine (levelAt w s.qidx.toNat)).record (.commit (levelAt w s.qidx.toNat))).mapEnv
    Env.tookWait).mapEnv (Env.advance (1000 * s.tu.toNat + x))).record (.wait s.tu (1000 * s.tu.toNat + x)))

/-- The state in a slot whose commit succeeded and whose wait never ends. -/
def slotHung (w : LogicalWord) (s : State) : State :=
  ((((s.mapEnv Env.tookSink).driveLine (levelAt w s.qidx.toNat)).record (.commit (levelAt w s.qidx.toNat))).mapEnv
    Env.tookWait).hang s.tu

/-- The state after a commit that failed. -/
def sinkFailed (s : State) : State := ((s.mapEnv Env.tookSink).mapEnv Env.freePin).takeFault .sinkFault

theorem frameLevel_of_le {w : LogicalWord} {q : Nat} (h : q ≤ 175) : frameLevel w q = some (levelAt w q) :=
  if_pos h

theorem frameLevel_of_gt {w : LogicalWord} {q : Nat} (h : 175 < q) : frameLevel w q = none :=
  if_neg (Nat.not_le.mpr h)

theorem commitLevel_ok (l : Level) {s : State} (h : s.env.nextSink = true) :
    commitLevel l s = .ok () (((s.mapEnv Env.tookSink).driveLine l).record (.commit l)) := by
  simp [commitLevel, h]

theorem commitLevel_fails (l : Level) {s : State} (h : s.env.nextSink = false) :
    commitLevel l s = .cut (sinkFailed s) := by
  simp [commitLevel, h, sinkFailed]

/-- The wait of a slot sees the environment after the commit's answer. -/
theorem nextWait_tookSink_setPin (e : Env) (l : Level) : (e.tookSink.setPin l).nextWait = e.tookSink.nextWait := rfl

theorem quarterStep_done {w : LogicalWord} {x : Nat} {s : State} (hq : s.qidx.toNat ≤ 175)
    (hs : s.env.nextSink = true) (hw : s.env.tookSink.nextWait = .ends x) :
    quarterStep w s = .ok () (slotDone w x s) := by
  simp [quarterStep, frameLevel_of_le hq, commitLevel_ok _ hs, waitFor, nextWait_tookSink_setPin, hw, slotDone]

theorem quarterStep_fails {w : LogicalWord} {s : State} (hq : s.qidx.toNat ≤ 175) (hs : s.env.nextSink = false) :
    quarterStep w s = .cut (sinkFailed s) := by
  simp [quarterStep, frameLevel_of_le hq, commitLevel_fails _ hs]

theorem quarterStep_hangs {w : LogicalWord} {s : State} (hq : s.qidx.toNat ≤ 175) (hs : s.env.nextSink = true)
    (hw : s.env.tookSink.nextWait = .never) : quarterStep w s = .cut (slotHung w s) := by
  simp [quarterStep, frameLevel_of_le hq, commitLevel_ok _ hs, waitFor, nextWait_tookSink_setPin, hw, slotHung]

theorem quarterStep_stuck {w : LogicalWord} {s : State} (hq : 175 < s.qidx.toNat) :
    quarterStep w s = .stuck .qidxOutOfRange := by
  simp [quarterStep, frameLevel_of_gt hq]

/-- The four ends of a slot (41_phase_transmitter.md R88, R89, R91). -/
theorem quarterStep_cases (w : LogicalWord) (s : State) :
    (s.qidx.toNat ≤ 175 ∧ s.env.nextSink = true ∧ ∃ x, s.env.tookSink.nextWait = .ends x
      ∧ quarterStep w s = .ok () (slotDone w x s))
    ∨ (s.qidx.toNat ≤ 175 ∧ s.env.nextSink = false ∧ quarterStep w s = .cut (sinkFailed s))
    ∨ (s.qidx.toNat ≤ 175 ∧ s.env.nextSink = true ∧ s.env.tookSink.nextWait = .never
      ∧ quarterStep w s = .cut (slotHung w s))
    ∨ (175 < s.qidx.toNat ∧ quarterStep w s = .stuck .qidxOutOfRange) := by
  rcases Nat.lt_or_ge 175 s.qidx.toNat with hq | hq
  · exact .inr (.inr (.inr ⟨hq, quarterStep_stuck hq⟩))
  · cases hs : s.env.nextSink with
    | false => exact .inr (.inl ⟨hq, rfl, quarterStep_fails hq hs⟩)
    | true =>
      cases hw : s.env.tookSink.nextWait with
      | ends x => exact .inl ⟨hq, rfl, x, rfl, quarterStep_done hq hs hw⟩
      | never => exact .inr (.inr (.inl ⟨hq, rfl, rfl, quarterStep_hangs hq hs hw⟩))

/-! The fields of the three states. -/

section
variable (w : LogicalWord) (x : Nat) (s : State)
@[simp] theorem slotDone_p : (slotDone w x s).p = s.p := by simp [slotDone]
@[simp] theorem slotDone_written : (slotDone w x s).written = s.written := by simp [slotDone]
@[simp] theorem slotDone_ovr : (slotDone w x s).ovr = s.ovr := by simp [slotDone]
@[simp] theorem slotDone_phase : (slotDone w x s).phase = s.phase := by simp [slotDone]
@[simp] theorem slotDone_iter : (slotDone w x s).iter = s.iter := by simp [slotDone]
@[simp] theorem slotDone_rep : (slotDone w x s).rep = s.rep := by simp [slotDone]
@[simp] theorem slotDone_qidx : (slotDone w x s).qidx = s.qidx := by simp [slotDone]
@[simp] theorem slotDone_tu : (slotDone w x s).tu = s.tu := by simp [slotDone]
@[simp] theorem slotDone_tuf : (slotDone w x s).tuf = s.tuf := by simp [slotDone]
@[simp] theorem slotDone_t0 : (slotDone w x s).t0 = s.t0 := by simp [slotDone]
@[simp] theorem slotDone_line : (slotDone w x s).line = levelAt w s.qidx.toNat := by simp [slotDone]
@[simp] theorem slotDone_busy : (slotDone w x s).busy = s.busy := by simp [slotDone]
@[simp] theorem slotDone_doneFlag : (slotDone w x s).doneFlag = s.doneFlag := by simp [slotDone]
@[simp] theorem slotDone_fatalFlag : (slotDone w x s).fatalFlag = s.fatalFlag := by simp [slotDone]
@[simp] theorem slotDone_cancelled : (slotDone w x s).cancelled = s.cancelled := by simp [slotDone]
@[simp] theorem slotDone_cause : (slotDone w x s).cause = s.cause := by simp [slotDone]
@[simp] theorem slotDone_waiting : (slotDone w x s).waiting = s.waiting := by simp [slotDone]
@[simp] theorem slotDone_inputs : (slotDone w x s).inputs = s.inputs := by simp [slotDone]
@[simp] theorem slotDone_out : (slotDone w x s).out = s.out := by simp [slotDone]
@[simp] theorem slotDone_hist : (slotDone w x s).hist
    = .wait s.tu (1000 * s.tu.toNat + x) :: .commit (levelAt w s.qidx.toNat) :: s.hist := by simp [slotDone]
@[simp] theorem slotDone_now : (slotDone w x s).env.now = s.env.now + (1000 * s.tu.toNat + x) := by simp [slotDone]
@[simp] theorem slotDone_sink : (slotDone w x s).env.sink = s.env.sink.tail := by simp [slotDone]
@[simp] theorem slotDone_cancel : (slotDone w x s).env.cancel = s.env.cancel := by simp [slotDone]
@[simp] theorem slotDone_waits : (slotDone w x s).env.waits = s.env.waits.tail := by simp [slotDone]
@[simp] theorem slotDone_drift : (slotDone w x s).env.drift = s.env.drift := by simp [slotDone]
@[simp] theorem slotHung_p : (slotHung w s).p = s.p := by simp [slotHung]
@[simp] theorem slotHung_written : (slotHung w s).written = s.written := by simp [slotHung]
@[simp] theorem slotHung_ovr : (slotHung w s).ovr = s.ovr := by simp [slotHung]
@[simp] theorem slotHung_phase : (slotHung w s).phase = s.phase := by simp [slotHung]
@[simp] theorem slotHung_iter : (slotHung w s).iter = s.iter := by simp [slotHung]
@[simp] theorem slotHung_rep : (slotHung w s).rep = s.rep := by simp [slotHung]
@[simp] theorem slotHung_qidx : (slotHung w s).qidx = s.qidx := by simp [slotHung]
@[simp] theorem slotHung_tu : (slotHung w s).tu = s.tu := by simp [slotHung]
@[simp] theorem slotHung_tuf : (slotHung w s).tuf = s.tuf := by simp [slotHung]
@[simp] theorem slotHung_t0 : (slotHung w s).t0 = s.t0 := by simp [slotHung]
@[simp] theorem slotHung_busy : (slotHung w s).busy = s.busy := by simp [slotHung]
@[simp] theorem slotHung_doneFlag : (slotHung w s).doneFlag = s.doneFlag := by simp [slotHung]
@[simp] theorem slotHung_fatalFlag : (slotHung w s).fatalFlag = s.fatalFlag := by simp [slotHung]
@[simp] theorem slotHung_cancelled : (slotHung w s).cancelled = s.cancelled := by simp [slotHung]
@[simp] theorem slotHung_cause : (slotHung w s).cause = s.cause := by simp [slotHung]
@[simp] theorem slotHung_inputs : (slotHung w s).inputs = s.inputs := by simp [slotHung]
@[simp] theorem slotHung_out : (slotHung w s).out = s.out := by simp [slotHung]
@[simp] theorem slotHung_line : (slotHung w s).line = levelAt w s.qidx.toNat := by simp [slotHung]
@[simp] theorem slotHung_waiting : (slotHung w s).waiting = some s.tu := by simp [slotHung]
@[simp] theorem slotHung_hist : (slotHung w s).hist = .commit (levelAt w s.qidx.toNat) :: s.hist := by simp [slotHung]
@[simp] theorem slotHung_now : (slotHung w s).env.now = s.env.now := by simp [slotHung]
@[simp] theorem slotHung_cancel : (slotHung w s).env.cancel = s.env.cancel := by simp [slotHung]
@[simp] theorem slotHung_drift : (slotHung w s).env.drift = s.env.drift := by simp [slotHung]
@[simp] theorem sinkFailed_p : (sinkFailed s).p = s.p := by simp [sinkFailed]
@[simp] theorem sinkFailed_written : (sinkFailed s).written = s.written := by simp [sinkFailed]
@[simp] theorem sinkFailed_ovr : (sinkFailed s).ovr = s.ovr := by simp [sinkFailed]
@[simp] theorem sinkFailed_phase : (sinkFailed s).phase = .fatal := by simp [sinkFailed]
@[simp] theorem sinkFailed_iter : (sinkFailed s).iter = s.iter := by simp [sinkFailed]
@[simp] theorem sinkFailed_rep : (sinkFailed s).rep = s.rep := by simp [sinkFailed]
@[simp] theorem sinkFailed_qidx : (sinkFailed s).qidx = s.qidx := by simp [sinkFailed]
@[simp] theorem sinkFailed_tu : (sinkFailed s).tu = s.tu := by simp [sinkFailed]
@[simp] theorem sinkFailed_tuf : (sinkFailed s).tuf = s.tuf := by simp [sinkFailed]
@[simp] theorem sinkFailed_t0 : (sinkFailed s).t0 = s.t0 := by simp [sinkFailed]
@[simp] theorem sinkFailed_line : (sinkFailed s).line = s.line := by simp [sinkFailed]
@[simp] theorem sinkFailed_busy : (sinkFailed s).busy = false := by simp [sinkFailed]
@[simp] theorem sinkFailed_doneFlag : (sinkFailed s).doneFlag = s.doneFlag := by simp [sinkFailed]
@[simp] theorem sinkFailed_fatalFlag : (sinkFailed s).fatalFlag = true := by simp [sinkFailed]
@[simp] theorem sinkFailed_cancelled : (sinkFailed s).cancelled = s.cancelled := by simp [sinkFailed]
@[simp] theorem sinkFailed_cause : (sinkFailed s).cause = 1 := by simp [sinkFailed, causeCode]
@[simp] theorem sinkFailed_waiting : (sinkFailed s).waiting = s.waiting := by simp [sinkFailed]
@[simp] theorem sinkFailed_inputs : (sinkFailed s).inputs = s.inputs := by simp [sinkFailed]
@[simp] theorem sinkFailed_out : (sinkFailed s).out = s.out := by simp [sinkFailed]
@[simp] theorem sinkFailed_hist : (sinkFailed s).hist = .fault .sinkFault :: s.hist := by simp [sinkFailed]
@[simp] theorem sinkFailed_now : (sinkFailed s).env.now = s.env.now := by simp [sinkFailed]
@[simp] theorem sinkFailed_sink : (sinkFailed s).env.sink = s.env.sink.tail := by simp [sinkFailed]
@[simp] theorem sinkFailed_cancel : (sinkFailed s).env.cancel = s.env.cancel := by simp [sinkFailed]
@[simp] theorem sinkFailed_waits : (sinkFailed s).env.waits = s.env.waits := by simp [sinkFailed]
@[simp] theorem sinkFailed_drift : (sinkFailed s).env.drift = s.env.drift := by simp [sinkFailed]
end

/-- A property that a slot keeps, and that setting `QIDX` keeps, is kept by a whole frame; what cuts it has `Q`. -/
theorem slotsFrom_ends {P Q : State → Prop} (w : LogicalWord)
    (hslot : ∀ s, P s → (quarterStep w s).Ends (fun _ t => P t) Q) (hq : ∀ s n, P s → P (s.setQidx n)) :
    ∀ (n : Nat) (s : State), P s → (slotsFrom w n s).Ends (fun _ t => P t) Q
  | 0, s, h => (hslot s h).andThen fun _ t ht => hq t 0 ht
  | n + 1, s, h => (hslot s h).andThen fun _ t ht => slotsFrom_ends w hslot hq n _ (hq t _ ht)

/-! ### The end of a repetition (41_phase_transmitter.md R92, R93) -/

section
variable (s : State)
@[simp] theorem endRepetition_p : (endRepetition s).p = s.p := by simp [endRepetition]
@[simp] theorem endRepetition_written : (endRepetition s).written = s.written := by simp [endRepetition]
@[simp] theorem endRepetition_ovr : (endRepetition s).ovr = s.ovr := by simp [endRepetition]
@[simp] theorem endRepetition_phase : (endRepetition s).phase = s.phase := by simp [endRepetition]
@[simp] theorem endRepetition_iter : (endRepetition s).iter = s.iter := by simp [endRepetition]
@[simp] theorem endRepetition_rep : (endRepetition s).rep = s.rep + 1 := by simp [endRepetition]
@[simp] theorem endRepetition_qidx : (endRepetition s).qidx = s.qidx := by simp [endRepetition]
@[simp] theorem endRepetition_tu : (endRepetition s).tu = s.tu := by simp [endRepetition]
@[simp] theorem endRepetition_tuf : (endRepetition s).tuf = s.tuf := by simp [endRepetition]
@[simp] theorem endRepetition_t0 : (endRepetition s).t0 = s.t0 := by simp [endRepetition]
@[simp] theorem endRepetition_line : (endRepetition s).line = s.line := by simp [endRepetition]
@[simp] theorem endRepetition_busy : (endRepetition s).busy = s.busy := by simp [endRepetition]
@[simp] theorem endRepetition_doneFlag : (endRepetition s).doneFlag = s.doneFlag := by simp [endRepetition]
@[simp] theorem endRepetition_fatalFlag : (endRepetition s).fatalFlag = s.fatalFlag := by simp [endRepetition]
@[simp] theorem endRepetition_cause : (endRepetition s).cause = s.cause := by simp [endRepetition]
@[simp] theorem endRepetition_waiting : (endRepetition s).waiting = s.waiting := by simp [endRepetition]
@[simp] theorem endRepetition_inputs : (endRepetition s).inputs = s.inputs := by simp [endRepetition]
@[simp] theorem endRepetition_out : (endRepetition s).out = s.out := by simp [endRepetition]
@[simp] theorem endRepetition_hist : (endRepetition s).hist = .cancel s.env.nextCancel :: s.hist := by simp [endRepetition]
@[simp] theorem endRepetition_env : (endRepetition s).env = s.env.tookCancel := by simp [endRepetition]
@[simp] theorem endRepetition_cancelled : (endRepetition s).cancelled
    = (s.cancelled || (s.env.nextCancel && (s.phase == .tx && (s.rep + 1).ult s.p.rpt))) := by simp [endRepetition]
end

/-- Below 2^64 ns the clock shows the true time (D9). -/
theorem clockValue_lt {now : Nat} (h : now < 2 ^ 64) : clockValue now = BitVec.ofNat _ now := if_pos h

/-! ### The calibrator (42_calibrator.md R105, R107) -/

theorem correct_zero (s : State) : correct 0 s = .cut (s.takeFault .calDivideByZero) := rfl

theorem correct_overflow {meas : Nat} {s : State} (h0 : meas ≠ 0) (h : 2 ^ 32 ≤ correction s.tu meas) :
    correct meas s = .cut (s.takeFault .calOverflow) := by
  unfold correct
  rw [if_neg h0, if_pos h]

theorem correct_ok {meas : Nat} {s : State} (h0 : meas ≠ 0) (h : correction s.tu meas < 2 ^ 32) :
    correct meas s = .ok () (s.writeTU (BitVec.ofNat _ (correction s.tu meas))) := by
  unfold correct
  rw [if_neg h0, if_neg (Nat.not_le.mpr h)]

/-- The three ends of a correction. -/
theorem correct_cases (meas : Nat) (s : State) :
    (meas = 0 ∧ correct meas s = .cut (s.takeFault .calDivideByZero))
    ∨ (meas ≠ 0 ∧ 2 ^ 32 ≤ correction s.tu meas ∧ correct meas s = .cut (s.takeFault .calOverflow))
    ∨ (meas ≠ 0 ∧ correction s.tu meas < 2 ^ 32
      ∧ correct meas s = .ok () (s.writeTU (BitVec.ofNat _ (correction s.tu meas)))) := by
  rcases Nat.eq_zero_or_pos meas with rfl | h
  · exact .inl ⟨rfl, rfl⟩
  · rcases Nat.lt_or_ge (correction s.tu meas) (2 ^ 32) with h2 | h2
    · exact .inr (.inr ⟨Nat.ne_of_gt h, h2, correct_ok (Nat.ne_of_gt h) h2⟩)
    · exact .inr (.inl ⟨Nat.ne_of_gt h, h2, correct_overflow (Nat.ne_of_gt h) h2⟩)

/-! ### The step -/

theorem step_of_operation {s : State} {i : Instr} (hi : s.input.operation = .ok (some i)) :
    step s = exec i s.moveOn := by
  simp [step, hi]

theorem step_of_quiet {s : State} (hi : s.input = .quiet) : step s = tick s.moveOn := by
  simp [step, hi, HostInput.operation]


end Sys2Proof.Machine
end

