-- ==== Sys2Proof/Laws/Keeps.lean ====
section
/-! SUPPORT. What the operations of the transmitter and of the calibrator keep, whatever the environment answers: where
the operation completed (Live), where a SinkFault ended it (Cut), and where a wait never ends (Hung). Later proofs cite
these for every frame statement. -/

namespace Sys2Proof.Machine

/-- What no operation of the transmitter changes. -/
structure Kept (s t : State) : Prop where
  p : t.p = s.p
  written : t.written = s.written
  ovr : t.ovr = s.ovr
  iter : t.iter = s.iter
  tu : t.tu = s.tu
  tuf : t.tuf = s.tuf
  t0 : t.t0 = s.t0
  doneFlag : t.doneFlag = s.doneFlag
  out : t.out = s.out
  inputs : t.inputs = s.inputs
  hist : ∃ es, t.hist = es ++ s.hist
  drift : t.env.drift = s.env.drift
  now : s.env.now ≤ t.env.now

/-- Where no fault was taken. -/
structure Going (s t : State) : Prop extends Kept s t where
  phase : t.phase = s.phase
  busy : t.busy = s.busy
  fatalFlag : t.fatalFlag = s.fatalFlag
  cause : t.cause = s.cause
  cancelled : s.phase ≠ .tx → t.cancelled = s.cancelled

/-- Where an operation of the transmitter completed. -/
structure Live (s t : State) : Prop extends Going s t where
  waiting : t.waiting = s.waiting

/-- Where it stays in a wait that never ends. -/
structure Hung (s t : State) : Prop extends Going s t where
  waiting : t.waiting ≠ none
  qidx : t.qidx.toNat ≤ 175

/-- Where a SinkFault ended it. -/
structure Cut (s t : State) : Prop extends Kept s t where
  phase : t.phase = .fatal
  busy : t.busy = false
  fatalFlag : t.fatalFlag = true
  cause : t.cause = 1
  head : t.hist.head? = some (.fault .sinkFault)
  cancelled : s.phase ≠ .tx → t.cancelled = s.cancelled
  waiting : t.waiting = s.waiting
  qidx : t.qidx.toNat ≤ 175

/-- Where it did not complete. -/
def Stop (s t : State) : Prop := Cut s t ∨ Hung s t

theorem Kept.trans {s t u : State} (h : Kept s t) (k : Kept t u) : Kept s u where
  p := k.p.trans h.p
  written := k.written.trans h.written
  ovr := k.ovr.trans h.ovr
  iter := k.iter.trans h.iter
  tu := k.tu.trans h.tu
  tuf := k.tuf.trans h.tuf
  t0 := k.t0.trans h.t0
  doneFlag := k.doneFlag.trans h.doneFlag
  out := k.out.trans h.out
  inputs := k.inputs.trans h.inputs
  hist := by
    obtain ⟨es, he⟩ := h.hist
    obtain ⟨fs, hf⟩ := k.hist
    exact ⟨fs ++ es, by rw [hf, he, List.append_assoc]⟩
  drift := k.drift.trans h.drift
  now := h.now.trans k.now

theorem Kept.refl (s : State) : Kept s s :=
  ⟨rfl, rfl, rfl, rfl, rfl, rfl, rfl, rfl, rfl, rfl, ⟨[], rfl⟩, rfl, Nat.le_refl _⟩

theorem Going.trans {s t u : State} (h : Going s t) (k : Going t u) : Going s u :=
  ⟨h.toKept.trans k.toKept, k.phase.trans h.phase, k.busy.trans h.busy, k.fatalFlag.trans h.fatalFlag,
    k.cause.trans h.cause, fun hp => (k.cancelled (h.phase ▸ hp)).trans (h.cancelled hp)⟩

theorem Live.refl (s : State) : Live s s := ⟨⟨.refl s, rfl, rfl, rfl, rfl, fun _ => rfl⟩, rfl⟩

theorem Live.trans {s t u : State} (h : Live s t) (k : Live t u) : Live s u :=
  ⟨h.toGoing.trans k.toGoing, k.waiting.trans h.waiting⟩

theorem Live.cut {s t u : State} (h : Live s t) (k : Cut t u) : Cut s u :=
  ⟨h.toKept.trans k.toKept, k.phase, k.busy, k.fatalFlag, k.cause, k.head,
    fun hp => (k.cancelled (h.phase ▸ hp)).trans (h.cancelled hp), k.waiting.trans h.waiting, k.qidx⟩

theorem Live.stop {s t u : State} (h : Live s t) (k : Stop t u) : Stop s u :=
  k.imp h.cut fun k => ⟨h.toGoing.trans k.toGoing, k.waiting, k.qidx⟩

theorem Live.setQidx (s : State) (q : BitVec 8) : Live s (s.setQidx q) :=
  ⟨⟨⟨rfl, rfl, rfl, rfl, rfl, rfl, rfl, rfl, rfl, rfl, ⟨[], rfl⟩, rfl, Nat.le_refl _⟩, rfl, rfl, rfl, rfl, fun _ => rfl⟩,
    rfl⟩

theorem Live.setRep (s : State) (r : RepeatCount) : Live s (s.setRep r) :=
  ⟨⟨⟨rfl, rfl, rfl, rfl, rfl, rfl, rfl, rfl, rfl, rfl, ⟨[], rfl⟩, rfl, Nat.le_refl _⟩, rfl, rfl, rfl, rfl, fun _ => rfl⟩,
    rfl⟩

theorem Live.slotDone (w : LogicalWord) (x : Nat) (s : State) : Live s (slotDone w x s) where
  p := by simp
  written := by simp
  ovr := by simp
  iter := by simp
  tu := by simp
  tuf := by simp
  t0 := by simp
  doneFlag := by simp
  out := by simp
  inputs := by simp
  hist := ⟨[_, _], by rw [slotDone_hist]; rfl⟩
  drift := by simp
  now := by simp
  phase := by simp
  busy := by simp
  fatalFlag := by simp
  cause := by simp
  cancelled := by simp
  waiting := by simp

theorem Hung.slotHung (w : LogicalWord) (s : State) (hq : s.qidx.toNat ≤ 175) : Hung s (slotHung w s) where
  p := by simp
  written := by simp
  ovr := by simp
  iter := by simp
  tu := by simp
  tuf := by simp
  t0 := by simp
  doneFlag := by simp
  out := by simp
  inputs := by simp
  hist := ⟨[_], by rw [slotHung_hist]; rfl⟩
  drift := by simp
  now := by simp
  phase := by simp
  busy := by simp
  fatalFlag := by simp
  cause := by simp
  cancelled := by simp
  waiting := by simp
  qidx := by simpa using hq

theorem Cut.sinkFailed (s : State) (hq : s.qidx.toNat ≤ 175) : Cut s (sinkFailed s) where
  p := by simp
  written := by simp
  ovr := by simp
  iter := by simp
  tu := by simp
  tuf := by simp
  t0 := by simp
  doneFlag := by simp
  out := by simp
  inputs := by simp
  hist := ⟨[_], by rw [sinkFailed_hist]; rfl⟩
  drift := by simp
  now := by simp
  phase := by simp
  busy := by simp
  fatalFlag := by simp
  cause := by simp
  head := by simp
  cancelled := by simp
  waiting := by simp
  qidx := by simpa using hq

theorem Live.endRepetition (s : State) : Live s (endRepetition s) where
  p := by simp
  written := by simp
  ovr := by simp
  iter := by simp
  tu := by simp
  tuf := by simp
  t0 := by simp
  doneFlag := by simp
  out := by simp
  inputs := by simp
  hist := ⟨[_], by rw [endRepetition_hist]; rfl⟩
  drift := by simp [Env.tookCancel]
  now := by simp [Env.tookCancel]
  phase := by simp
  busy := by simp
  fatalFlag := by simp
  cause := by simp
  cancelled := fun h => by simp [h]
  waiting := by simp

/-- One slot. -/
theorem quarterStep_keeps (w : LogicalWord) (s : State) :
    (quarterStep w s).Ends (fun _ t => Live s t ∧ t.qidx = s.qidx ∧ t.rep = s.rep) (Stop s) := by
  rcases quarterStep_cases w s with ⟨_, _, x, _, h⟩ | ⟨hq, _, h⟩ | ⟨hq, _, _, h⟩ | ⟨_, h⟩ <;> rw [h]
  · exact ⟨.slotDone w x s, by simp, by simp⟩
  · exact .inl (.sinkFailed s hq)
  · exact .inr (.slotHung w s hq)
  · trivial

/-- The rest of a frame. -/
theorem slotsFrom_keeps (w : LogicalWord) : ∀ (n : Nat) (s : State),
    (slotsFrom w n s).Ends (fun _ t => Live s t ∧ t.qidx = 0 ∧ t.rep = s.rep) (Stop s)
  | 0, s => (quarterStep_keeps w s).andThen fun _ t h => ⟨h.1.trans (.setQidx t 0), rfl, h.2.2⟩
  | n + 1, s => (quarterStep_keeps w s).andThen fun _ t h =>
      (slotsFrom_keeps w n (t.setQidx (t.qidx + 1))).mono
        (fun _ _ k => ⟨(h.1.trans (.setQidx t _)).trans k.1, k.2.1, k.2.2.trans h.2.2⟩)
        (fun _ k => (h.1.trans (.setQidx t _)).stop k)

/-- A frame. -/
theorem transmitWord_keeps (w : LogicalWord) (s : State) :
    (transmitWord w s).Ends (fun _ t => Live s t ∧ t.qidx = 0 ∧ t.rep = s.rep) (Stop s) :=
  (slotsFrom_keeps w 175 (s.setQidx 0)).mono (fun _ _ k => ⟨(Live.setQidx s 0).trans k.1, k.2.1, k.2.2⟩)
    (fun _ k => (Live.setQidx s 0).stop k)

/-- The repetitions: `REP` goes up by at most the repetitions left. -/
theorem repetitions_keeps : ∀ (n : Nat) (s : State), s.rep.toNat + n < 65536 →
    (repetitions n s).Ends (fun _ t => Live s t ∧ t.rep.toNat ≤ s.rep.toNat + n ∧ (n ≠ 0 → t.qidx = 0)
      ∧ (n = 0 → t = s)) (Stop s)
  | 0, s, _ => ⟨.refl s, Nat.le_refl _, fun h => absurd rfl h, fun _ => rfl⟩
  | n + 1, s, hn => (transmitWord_keeps s.active.pack s).andThen fun _ t h => by
      have hr : (endRepetition t).rep.toNat = s.rep.toNat + 1 := by
        rw [endRepetition_rep, h.2.2, BitVec.toNat_add, two_pow_repeatW]
        simp
        omega
      have hl : Live s (endRepetition t) := h.1.trans (.endRepetition t)
      split
      · refine ⟨hl, by omega, fun _ => by simp [h.2.1], fun h => absurd h (by omega)⟩
      · have ih := repetitions_keeps n (endRepetition t) (by omega)
        refine ih.mono (fun _ u k => ⟨hl.trans k.1, by omega, fun _ => ?_, fun h => absurd h (by omega)⟩)
          (fun _ k => hl.stop k)
        rcases Nat.eq_zero_or_pos n with h0 | h0
        · rw [k.2.2.2 h0]
          simp [h.2.1]
        · exact k.2.2.1 (by omega)

/-- SEND. -/
theorem sendActive_keeps (s : State) :
    (sendActive s).Ends (fun _ t => Live s t ∧ t.rep.toNat ≤ s.active.rpt.toNat
      ∧ (s.active.rpt ≠ 0 → t.qidx = 0) ∧ (s.active.rpt = 0 → t = s.setRep 0)) (Stop s) := by
  have h := repetitions_keeps s.active.rpt.toNat (s.setRep 0) (by
    have := two_pow_repeatW ▸ s.active.rpt.isLt
    simp [State.setRep]
    omega)
  refine h.mono (fun _ t k => ⟨(Live.setRep s 0).trans k.1, by simpa [State.setRep] using k.2.1, fun h0 => ?_, fun h0 => ?_⟩)
    (fun _ k => (Live.setRep s 0).stop k)
  · exact k.2.2.1 fun h1 => h0 (BitVec.eq_of_toNat_eq h1)
  · exact k.2.2.2 (by rw [h0]; rfl)

/-! ### The calibrator -/

/-- What no operation of the calibrator changes in phase `CAL`. -/
structure CalKept (s t : State) : Prop where
  p : t.p = s.p
  written : t.written = s.written
  ovr : t.ovr = s.ovr
  tuf : t.tuf = s.tuf
  doneFlag : t.doneFlag = s.doneFlag
  cancelled : t.cancelled = s.cancelled
  inputs : t.inputs = s.inputs
  hist : ∃ es, t.hist = es ++ s.hist
  now : s.env.now ≤ t.env.now
  out : t.out = s.out
  frozen : s.tuf = true → t.tu = s.tu

/-- Where no fault was taken. -/
structure CalGoing (s t : State) : Prop extends CalKept s t where
  phase : t.phase = s.phase
  busy : t.busy = s.busy
  fatalFlag : t.fatalFlag = s.fatalFlag
  cause : t.cause = s.cause

/-- Where an operation of the calibrator completed. -/
structure CalLive (s t : State) : Prop extends CalGoing s t where
  waiting : t.waiting = s.waiting

/-- Where it stays in a wait that never ends. -/
structure CalHung (s t : State) : Prop extends CalGoing s t where
  waiting : t.waiting ≠ none
  qidx : t.qidx.toNat ≤ 175

/-- Where a fault ended it. -/
structure CalCut (s t : State) : Prop extends CalKept s t where
  phase : t.phase = .fatal
  busy : t.busy = false
  fatalFlag : t.fatalFlag = true
  cause : t.cause ≠ 0
  waiting : t.waiting = s.waiting
  qidx : t.qidx.toNat ≤ 175

/-- Where it did not complete. -/
def CalStop (s t : State) : Prop := CalCut s t ∨ CalHung s t

theorem CalKept.trans {s t u : State} (h : CalKept s t) (k : CalKept t u) : CalKept s u where
  p := k.p.trans h.p
  written := k.written.trans h.written
  ovr := k.ovr.trans h.ovr
  tuf := k.tuf.trans h.tuf
  doneFlag := k.doneFlag.trans h.doneFlag
  cancelled := k.cancelled.trans h.cancelled
  inputs := k.inputs.trans h.inputs
  hist := by
    obtain ⟨es, he⟩ := h.hist
    obtain ⟨fs, hf⟩ := k.hist
    exact ⟨fs ++ es, by rw [hf, he, List.append_assoc]⟩
  now := h.now.trans k.now
  out := k.out.trans h.out
  frozen := fun hf => (k.frozen (h.tuf.trans hf)).trans (h.frozen hf)

theorem CalGoing.trans {s t u : State} (h : CalGoing s t) (k : CalGoing t u) : CalGoing s u :=
  ⟨h.toCalKept.trans k.toCalKept, k.phase.trans h.phase, k.busy.trans h.busy, k.fatalFlag.trans h.fatalFlag,
    k.cause.trans h.cause⟩

theorem CalLive.trans {s t u : State} (h : CalLive s t) (k : CalLive t u) : CalLive s u :=
  ⟨h.toCalGoing.trans k.toCalGoing, k.waiting.trans h.waiting⟩

theorem CalLive.cut {s t u : State} (h : CalLive s t) (k : CalCut t u) : CalCut s u :=
  ⟨h.toCalKept.trans k.toCalKept, k.phase, k.busy, k.fatalFlag, k.cause, k.waiting.trans h.waiting, k.qidx⟩

theorem CalLive.stop {s t u : State} (h : CalLive s t) (k : CalStop t u) : CalStop s u :=
  k.imp h.cut fun k => ⟨h.toCalGoing.trans k.toCalGoing, k.waiting, k.qidx⟩

theorem Going.cal {s t : State} (h : Going s t) (hp : s.phase = .cal) : CalGoing s t :=
  ⟨⟨h.p, h.written, h.ovr, h.tuf, h.doneFlag, h.cancelled (by simp [hp]), h.inputs, h.hist, h.now, h.out,
    fun _ => h.tu⟩, h.phase, h.busy, h.fatalFlag, h.cause⟩

theorem Live.cal {s t : State} (h : Live s t) (hp : s.phase = .cal) : CalLive s t := ⟨h.toGoing.cal hp, h.waiting⟩

theorem Cut.cal {s t : State} (h : Cut s t) (hp : s.phase = .cal) : CalCut s t :=
  ⟨⟨h.p, h.written, h.ovr, h.tuf, h.doneFlag, h.cancelled (by simp [hp]), h.inputs, h.hist, h.now, h.out,
    fun _ => h.tu⟩, h.phase, h.busy, h.fatalFlag, by simp [h.cause], h.waiting, h.qidx⟩

theorem Stop.cal {s t : State} (h : Stop s t) (hp : s.phase = .cal) : CalStop s t :=
  h.imp (fun h => h.cal hp) fun h => ⟨h.toGoing.cal hp, h.waiting, h.qidx⟩

theorem Stop.kept {s t : State} (h : Stop s t) : Kept s t := h.elim (fun h => h.toKept) fun h => h.toKept

theorem CalLive.refl (s : State) : CalLive s s :=
  ⟨⟨⟨rfl, rfl, rfl, rfl, rfl, rfl, rfl, ⟨[], rfl⟩, Nat.le_refl _, rfl, fun _ => rfl⟩, rfl, rfl, rfl, rfl⟩, rfl⟩

theorem CalLive.setIter (s : State) (n : BitVec 4) : CalLive s (s.setIter n) :=
  ⟨⟨⟨rfl, rfl, rfl, rfl, rfl, rfl, rfl, ⟨[], rfl⟩, Nat.le_refl _, rfl, fun _ => rfl⟩, rfl, rfl, rfl, rfl⟩, rfl⟩

theorem CalLive.writeTU (s : State) (v : Micros) : CalLive s (s.writeTU v) :=
  ⟨⟨⟨rfl, rfl, rfl, rfl, rfl, rfl, rfl, ⟨[], rfl⟩, Nat.le_refl _, rfl, fun h => by simp [State.writeTU, h]⟩,
    rfl, rfl, rfl, rfl⟩, rfl⟩

theorem CalLive.clockRead (s : State) : CalLive s s.clockRead :=
  ⟨⟨⟨rfl, rfl, rfl, rfl, rfl, rfl, rfl, ⟨[_], rfl⟩, by simp [State.clockRead, State.record, State.mapEnv, Env.advance,
    Env.tookDrift], rfl, fun _ => rfl⟩, rfl, rfl, rfl, rfl⟩, rfl⟩

theorem CalLive.setT0 (s : State) (v : Nanos) : CalLive s (s.setT0 v) :=
  ⟨⟨⟨rfl, rfl, rfl, rfl, rfl, rfl, rfl, ⟨[], rfl⟩, Nat.le_refl _, rfl, fun _ => rfl⟩, rfl, rfl, rfl, rfl⟩, rfl⟩

theorem CalLive.openMeasure (s : State) : CalLive s (openMeasure s) := (CalLive.clockRead s).trans (.setT0 _ _)

theorem CalLive.seed (s : State) : CalLive s (seed s) := (CalLive.writeTU s _).trans (.setIter _ _)

theorem CalCut.takeFault (s : State) (c : Cause) (hq : s.qidx.toNat ≤ 175) : CalCut s (s.takeFault c) :=
  ⟨⟨rfl, rfl, rfl, rfl, rfl, rfl, rfl, ⟨[_], rfl⟩, Nat.le_refl _, rfl, fun _ => rfl⟩, rfl, rfl, rfl,
    by cases c <;> simp [State.takeFault, State.enterFatal, causeCode], rfl, hq⟩

/-- CAL_MEASURE. -/
theorem measure_keeps {s : State} (hp : s.phase = .cal) :
    (measure s).Ends (fun _ t => CalLive s t ∧ t.qidx = 0 ∧ t.rep.toNat ≤ 1 ∧ t.iter = s.iter ∧ t.tu = s.tu)
      (fun t => CalStop s t ∧ t.iter = s.iter ∧ t.tu = s.tu) := by
  have ho : (openMeasure s).phase = .cal := hp
  have ha : (openMeasure s).active.rpt = 1 := by simp [State.active, ho, calParams]
  have h := sendActive_keeps (openMeasure s)
  rw [ha] at h
  refine Res.Ends.andThen (Q := fun t => CalStop s t ∧ t.iter = s.iter ∧ t.tu = s.tu)
    (h.mono (fun _ t k => k) fun t k => ⟨(CalLive.openMeasure s).stop (k.cal ho), k.kept.iter, k.kept.tu⟩) ?_
  intro _ t k
  exact ⟨((CalLive.openMeasure s).trans (k.1.cal ho)).trans (.clockRead t), k.2.2.1 (by decide), k.2.1, k.1.iter,
    k.1.tu⟩

/-- CAL_CORRECT. -/
theorem correct_keeps (meas : Nat) {s : State} (hq : s.qidx.toNat ≤ 175) :
    (correct meas s).Ends (fun _ t => CalLive s t ∧ t.qidx = s.qidx ∧ t.rep = s.rep ∧ t.iter = s.iter)
      (fun t => CalStop s t ∧ t.iter = s.iter) := by
  rcases correct_cases meas s with ⟨_, h⟩ | ⟨_, _, h⟩ | ⟨_, _, h⟩ <;> rw [h]
  · exact ⟨.inl (.takeFault s _ hq), rfl⟩
  · exact ⟨.inl (.takeFault s _ hq), rfl⟩
  · exact ⟨.writeTU s _, rfl, rfl, rfl⟩

/-- One iteration of CALIBRATE. -/
theorem iteration_keeps {s : State} (hp : s.phase = .cal) :
    (iteration s).Ends (fun _ t => CalLive s t ∧ t.qidx = 0 ∧ t.rep.toNat ≤ 1 ∧ t.iter = s.iter + 1)
      (fun t => CalStop s t ∧ t.iter = s.iter) := by
  refine Res.Ends.andThen (Q := fun t => CalStop s t ∧ t.iter = s.iter)
    ((measure_keeps hp).mono (fun _ t k => k) fun t k => ⟨k.1, k.2.1⟩) ?_
  intro meas t k
  refine Res.Ends.andThen (Q := fun t => CalStop s t ∧ t.iter = s.iter)
    ((correct_keeps meas (s := t) (by simp [k.2.1])).mono (fun _ u l => l)
      fun u l => ⟨k.1.stop l.1, l.2.trans k.2.2.2.1⟩) ?_
  intro _ u l
  refine ⟨(k.1.trans l.1).trans (.setIter u _), l.2.1.trans k.2.1, ?_, ?_⟩
  · rw [setIter_rep, l.2.2.1]
    exact k.2.2.1
  · rw [setIter_iter, l.2.2.2, k.2.2.2.1]

/-- The loop of CALIBRATE: `ITER` counts the iterations finished. -/
theorem iterations_keeps : ∀ (n : Nat) (s : State), s.phase = .cal → s.iter.toNat + n ≤ 10 →
    (iterations n s).Ends (fun _ t => CalLive s t ∧ t.iter.toNat = s.iter.toNat + n
        ∧ (n ≠ 0 → t.qidx = 0 ∧ t.rep.toNat ≤ 1) ∧ (n = 0 → t = s))
      (fun t => CalStop s t ∧ t.iter.toNat ≤ 10)
  | 0, s, _, _ => ⟨.refl s, rfl, fun h => absurd rfl h, fun _ => rfl⟩
  | n + 1, s, hp, hn => by
    refine Res.Ends.andThen (Q := fun t => CalStop s t ∧ t.iter.toNat ≤ 10)
      ((iteration_keeps hp).mono (fun _ t k => k) fun t k => ⟨k.1, by rw [k.2]; omega⟩) ?_
    intro _ t k
    have hi : t.iter.toNat = s.iter.toNat + 1 := by
      rw [k.2.2.2, BitVec.toNat_add]
      simp
      omega
    refine (iterations_keeps n t (k.1.phase.trans hp) (by omega)).mono (fun _ u l => ?_)
      fun u l => ⟨k.1.stop l.1, l.2⟩
    refine ⟨k.1.trans l.1, by omega, fun _ => ?_, fun h => absurd h (by omega)⟩
    rcases Nat.eq_zero_or_pos n with h0 | h0
    · rw [l.2.2.2 h0]
      exact ⟨k.2.1, k.2.2.1⟩
    · exact l.2.2.1 (by omega)

/-- CALIBRATE. -/
theorem calibrateAll_keeps {s : State} (hp : s.phase = .cal) :
    (calibrateAll s).Ends (fun _ t => CalLive s t ∧ t.iter = 10 ∧ t.qidx = 0 ∧ t.rep.toNat ≤ 1)
      (fun t => CalStop s t ∧ t.iter.toNat ≤ 10) := by
  refine (iterations_keeps 10 (seed s) hp (by simp [seed])).mono (fun _ t k => ?_)
    fun t k => ⟨(CalLive.seed s).stop k.1, k.2⟩
  refine ⟨(CalLive.seed s).trans k.1, BitVec.eq_of_toNat_eq (by rw [k.2.1]; rfl), k.2.2.1 (by decide)⟩

end Sys2Proof.Machine
end

