-- ==== Sys2Proof/Laws/Transmit.lean ====
section
/-! SUPPORT. What the transmitter's loops do when the environment's answers are supplied: a slot, a frame, a frame cut by a
sink failure, and the repetitions of SEND (41_phase_transmitter.md R90 to R96). -/

namespace Sys2Proof.Machine

theorem levelAt_last (w : LogicalWord) : levelAt w 175 = false := by simp [levelAt]

theorem qidx_succ {q : BitVec 8} (h : q.toNat < 175) : (q + 1).toNat = q.toNat + 1 := by
  rw [BitVec.toNat_add]
  simp
  omega

/-- The state after a slot that took `x` ns more than asked, the answers `sk` and `wk` being left. -/
def slotSent (w : LogicalWord) (x : Nat) (sk : List Bool) (wk : List WaitAnswer) (s : State) : State :=
  { s with
    line := levelAt w s.qidx.toNat
    hist := .wait s.tu (1000 * s.tu.toNat + x) :: .commit (levelAt w s.qidx.toNat) :: s.hist
    env := { s.env with
      sink := sk
      waits := wk
      pin := levelAt w s.qidx.toNat
      now := s.env.now + (1000 * s.tu.toNat + x) } }

/-- The state after the last slots of a frame, one for each excess in `xs`. -/
def slotsSent (w : LogicalWord) (xs : List Nat) (sk : List Bool) (wk : List WaitAnswer) (s : State) : State :=
  { s with
    qidx := 0
    line := false
    hist := (slotEvents w s.tu s.qidx.toNat xs).reverse ++ s.hist
    env := { s.env with sink := sk, waits := wk, pin := false, now := s.env.now + waitsTime s.tu xs } }

/-- The state after a frame that the sink cut at its `xs.length`-th slot from here. -/
def slotsCut (w : LogicalWord) (xs : List Nat) (e : Env) (s : State) : State :=
  { s with
    phase := .fatal
    busy := false
    fatalFlag := true
    cause := 1
    qidx := BitVec.ofNat 8 (s.qidx.toNat + xs.length)
    line := if xs.length = 0 then s.line else levelAt w (s.qidx.toNat + xs.length - 1)
    hist := .fault .sinkFault :: ((slotEvents w s.tu s.qidx.toNat xs).reverse ++ s.hist)
    env := e }

theorem quarterStep_tapes {w : LogicalWord} {x : Nat} {s : State} {sk : List Bool} {wk : List WaitAnswer}
    (hq : s.qidx.toNat ≤ 175) (hs : s.env.sink = true :: sk) (hw : s.env.waits = .ends x :: wk) :
    quarterStep w s = .ok () (slotSent w x sk wk s) := by
  rw [quarterStep_done (x := x) hq (by simp [Env.nextSink, hs]) (by simp [Env.nextWait, Env.tookSink, hw])]
  simp [slotDone, slotSent, State.mapEnv, State.driveLine, State.record, Env.tookSink, Env.tookWait, Env.setPin,
    Env.advance, drawsAfter, hs, hw]

/-- The rest of a frame, slot by slot. -/
theorem slotsFrom_tapes (w : LogicalWord) : ∀ (n : Nat) (s : State) (xs : List Nat) (sk : List Bool)
    (wk : List WaitAnswer), s.qidx.toNat + n = 175 → xs.length = n + 1 →
    s.env.sink = List.replicate (n + 1) true ++ sk → s.env.waits = xs.map .ends ++ wk →
    slotsFrom w n s = .ok () (slotsSent w xs sk wk s) := by
  intro n
  induction n with
  | zero =>
    intro s xs sk wk hq hl hs hw
    match xs, hl with
    | [x], _ =>
      rw [slotsFrom, quarterStep_tapes (by omega) (by simpa using hs) (by simpa using hw)]
      have h : s.qidx.toNat = 175 := by omega
      simp [slotSent, slotsSent, h, levelAt_last, slotEvents, waitsTime, State.setQidx]
  | succ n ih =>
    intro s xs sk wk hq hl hs hw
    match xs, hl with
    | x :: xs, hl =>
      rw [slotsFrom, quarterStep_tapes (by omega) (by simpa [List.replicate_succ] using hs) (by simpa using hw)]
      have hq2 := qidx_succ (q := s.qidx) (by omega)
      rw [Res.andThen_ok, ih _ xs sk wk]
      · simp only [slotSent, slotsSent, State.setQidx, hq2]
        simp [slotEvents, waitsTime, Nat.add_assoc]
      · simp only [slotSent, State.setQidx, hq2]
        omega
      · simpa using hl
      · rfl
      · rfl

/-- A whole frame (R90). -/
theorem transmitWord_tapes (w : LogicalWord) (s : State) (xs : List Nat) (sk : List Bool) (wk : List WaitAnswer)
    (hl : xs.length = 176) (hs : s.env.sink = List.replicate 176 true ++ sk)
    (hw : s.env.waits = xs.map .ends ++ wk) :
    transmitWord w s = .ok () (slotsSent w xs sk wk (s.setQidx 0)) := by
  exact slotsFrom_tapes w 175 (s.setQidx 0) xs sk wk (by simp [State.setQidx]) hl hs hw

/-- The rest of a frame that the sink cuts (R95). -/
theorem slotsFrom_fail (w : LogicalWord) : ∀ (n : Nat) (s : State) (xs : List Nat) (sk : List Bool)
    (wk : List WaitAnswer), xs.length ≤ n → s.qidx.toNat + n = 175 →
    s.env.sink = List.replicate xs.length true ++ false :: sk → s.env.waits = xs.map .ends ++ wk →
    ∃ e, slotsFrom w n s = .cut (slotsCut w xs e s)
      ∧ e.now = s.env.now + waitsTime s.tu xs ∧ e.sink = sk ∧ e.waits = wk ∧ e.cancel = s.env.cancel
      ∧ e.drift = s.env.drift := by
  have h0 : ∀ (n : Nat) (s : State) (sk : List Bool) (wk : List WaitAnswer), s.qidx.toNat ≤ 175 →
      s.env.sink = false :: sk → s.env.waits = wk →
      ∃ e, slotsFrom w n s = .cut (slotsCut w [] e s)
        ∧ e.now = s.env.now ∧ e.sink = sk ∧ e.waits = wk ∧ e.cancel = s.env.cancel ∧ e.drift = s.env.drift := by
    intro n s sk wk hq hs hw
    have hn : s.env.nextSink = false := by simp [Env.nextSink, hs]
    refine ⟨(sinkFailed s).env, ?_, by simp, by simp [hs], by simp [hw], by simp, by simp⟩
    cases n <;> rw [slotsFrom, quarterStep_fails hq hn, Res.andThen_cut] <;>
      simp [slotsCut, sinkFailed, State.takeFault, State.enterFatal, State.record, State.mapEnv, causeCode, slotEvents]
  intro n
  induction n with
  | zero =>
    intro s xs sk wk hl hq hs hw
    obtain rfl : xs = [] := List.length_eq_zero_iff.mp (by omega)
    simpa [waitsTime] using h0 0 s sk wk (by omega) hs hw
  | succ n ih =>
    intro s xs sk wk hl hq hs hw
    match xs, hl with
    | [], _ => simpa [waitsTime] using h0 (n + 1) s sk wk (by omega) hs hw
    | x :: xs, hl =>
      rw [slotsFrom, quarterStep_tapes (by omega) (by simpa [List.replicate_succ] using hs) (by simpa using hw),
        Res.andThen_ok]
      have hq2 := qidx_succ (q := s.qidx) (by omega)
      obtain ⟨e, h1, h2⟩ := ih
        (State.setQidx (s.qidx + 1) (slotSent w x (List.replicate xs.length true ++ false :: sk) (xs.map .ends ++ wk) s))
        xs sk wk (by simpa using hl) (by simp only [slotSent, State.setQidx, hq2]; omega) rfl rfl
      refine ⟨e, ?_, ?_⟩
      · have h3 : s.qidx.toNat + 1 + xs.length = s.qidx.toNat + (xs.length + 1) := by omega
        simp only [slotSent] at h1
        simp only [slotSent]
        rw [h1]
        simp only [slotsCut, State.setQidx, hq2]
        simp [slotEvents, h3]
        intro h
        simp [h]
      · simpa [slotSent, State.setQidx, waitsTime, Nat.add_assoc] using h2

/-- The state after the repetitions `rs` of a SEND (the excesses of each frame's waits, and the flag read after it), the
last read having returned `c`. -/
def repetitionsSent (rs : List (List Nat × Bool)) (c : Bool) (sk ck : List Bool) (wk : List WaitAnswer) (s : State) :
    State :=
  { s with
    rep := s.rep + BitVec.ofNat 16 rs.length
    qidx := 0
    line := false
    cancelled := s.cancelled || (c && (s.phase == .tx && (s.rep + BitVec.ofNat 16 rs.length).ult s.p.rpt))
    hist := (sendEvents s.active.pack s.tu rs).reverse ++ s.hist
    env := { s.env with
      sink := sk
      cancel := ck
      waits := wk
      pin := false
      now := s.env.now + waitsTime s.tu (rs.flatMap Prod.fst) } }

theorem waitsTime_append (tu : Micros) (xs ys : List Nat) :
    waitsTime tu (xs ++ ys) = waitsTime tu xs + waitsTime tu ys := by
  simp [waitsTime]

/-- The repetitions of SEND (R92, R93). -/
theorem repetitions_tapes : ∀ (rs : List (List Nat × Bool)) (n : Nat) (s : State) (c : Bool) (sk ck : List Bool)
    (wk : List WaitAnswer), 1 ≤ rs.length → rs.length ≤ n → (∀ r ∈ rs, r.1.length = 176) →
    rs.map Prod.snd = List.replicate (rs.length - 1) false ++ [c] → (c = true ∨ rs.length = n) →
    s.env.sink = List.replicate (176 * rs.length) true ++ sk → s.env.cancel = rs.map Prod.snd ++ ck →
    s.env.waits = (rs.flatMap Prod.fst).map .ends ++ wk →
    repetitions n s = .ok () (repetitionsSent rs c sk ck wk s) := by
  intro rs
  induction rs with
  | nil => intro n s c sk ck wk h; simp at h
  | cons r rs ih =>
    intro n s c sk ck wk _ hn hlen hc hcn hs hcan hw
    obtain ⟨n, rfl⟩ : ∃ m, n = m + 1 := ⟨n - 1, by simp at hn; omega⟩
    have hs2 : s.env.sink = List.replicate 176 true ++ (List.replicate (176 * rs.length) true ++ sk) := by
      rw [hs, ← List.append_assoc, ← List.replicate_add, List.length_cons, Nat.mul_add, Nat.add_comm]
    have hw2 : s.env.waits = r.1.map .ends ++ ((rs.flatMap Prod.fst).map .ends ++ wk) := by
      rw [hw]
      simp
    rw [repetitions, transmitWord_tapes _ s r.1 _ _ (hlen r (by simp)) hs2 hw2, Res.andThen_ok]
    have hf : flagAtEnd (slotsSent s.active.pack r.1 (List.replicate (176 * rs.length) true ++ sk)
        ((rs.flatMap Prod.fst).map .ends ++ wk) (s.setQidx 0)) = r.2 := by
      simp [flagAtEnd, slotsSent, State.setQidx, Env.nextCancel, hcan]
    rw [hf]
    cases hr : rs with
    | nil =>
      subst hr
      simp only [List.map_cons, List.map_nil, List.length_cons, List.length_nil, Nat.zero_add, Nat.sub_self,
        List.replicate_zero, List.nil_append, List.cons.injEq, and_true] at hc
      have hn0 : (if r.2 = true then (Res.ok () (endRepetition (slotsSent s.active.pack r.1
          (List.replicate (176 * ([] : List (List Nat × Bool)).length) true ++ sk)
          ((([] : List (List Nat × Bool)).flatMap Prod.fst).map .ends ++ wk) (s.setQidx 0))) : Res Unit)
          else repetitions n (endRepetition (slotsSent s.active.pack r.1
          (List.replicate (176 * ([] : List (List Nat × Bool)).length) true ++ sk)
          ((([] : List (List Nat × Bool)).flatMap Prod.fst).map .ends ++ wk) (s.setQidx 0))))
          = .ok () (endRepetition (slotsSent s.active.pack r.1
          (List.replicate (176 * ([] : List (List Nat × Bool)).length) true ++ sk)
          ((([] : List (List Nat × Bool)).flatMap Prod.fst).map .ends ++ wk) (s.setQidx 0))) := by
        rcases hcn with h | h
        · rw [if_pos (hc.trans h)]
        · simp at h
          subst h
          simp [repetitions]
      rw [hn0]
      simp [repetitionsSent, endRepetition, slotsSent, State.setQidx, State.setRep, State.cancelRead, State.mapEnv,
        State.record, State.noteCancel, Env.nextCancel, Env.tookCancel, drawsAfter, hcan, hc, sendEvents, frameEvents]
    | cons r2 rs2 =>
      have hr2 : r.2 = false := by
        rw [hr] at hc
        simp [List.replicate_succ] at hc
        exact hc.1
      have hc2 : rs.map Prod.snd = List.replicate (rs.length - 1) false ++ [c] := by
        rw [hr] at hc ⊢
        simp [List.replicate_succ] at hc ⊢
        exact hc.2
      have hb : s.rep + 1#16 + BitVec.ofNat 16 rs.length = s.rep + BitVec.ofNat 16 (rs.length + 1) := by
        rw [Nat.add_comm, BitVec.ofNat_add, BitVec.add_assoc]
      rw [if_neg (by simp [hr2]), ← hr, ih n _ c sk ck wk (by simp [hr]) (by simpa using hn)
        (fun x hx => hlen x (by simp [hx])) hc2 (by simpa using hcn)]
      · simp [repetitionsSent, endRepetition, slotsSent, State.setQidx, State.setRep, State.cancelRead, State.mapEnv,
          State.record, State.noteCancel, Env.nextCancel, Env.tookCancel, drawsAfter, hcan, hr2, sendEvents,
          frameEvents, waitsTime_append, State.active, Nat.add_assoc]
        rw [hb]
        exact ⟨rfl, rfl⟩
      · simp [slotsSent]
      · simp [slotsSent, State.setQidx, Env.tookCancel, hcan]
      · simp [slotsSent]

end Sys2Proof.Machine
end

