-- ==== Sys2Proof/Laws/Calibrate.lean ====
section
/-! SUPPORT. The calibrator when the environment's answers are supplied: one measurement, and the loop under a constant
overhead (42_calibrator.md R105, R108, R111). -/

namespace Sys2Proof.Machine

/-- The one repetition of a CAL frame. -/
theorem sendActive_cal {s : State} (hp : s.phase = .cal) (xs : List Nat) (sk : List Bool) (c : Bool) (ck : List Bool)
    (wk : List WaitAnswer) (hl : xs.length = 176) (hs : s.env.sink = List.replicate 176 true ++ sk)
    (hc : s.env.cancel = c :: ck) (hw : s.env.waits = xs.map .ends ++ wk) :
    sendActive s = .ok () (repetitionsSent [(xs, c)] c sk ck wk (s.setRep 0)) := by
  have ha : s.active.rpt = 1 := by simp [State.active, hp, calParams]
  rw [sendActive, ha]
  exact repetitions_tapes [(xs, c)] _ (s.setRep 0) c sk ck wk (by simp) (by simp) (by simpa using hl) rfl (.inr rfl)
    hs (by simpa using hc) (by simpa using hw)

/-- The state after a measurement whose clock reads came `d0` and `d1` ns after what was before them. -/
def measured (xs : List Nat) (c : Bool) (sk ck : List Bool) (wk : List WaitAnswer) (d0 d1 : Nat) (dk : List Nat)
    (s : State) : State :=
  { s with
    t0 := BitVec.ofNat _ (s.env.now + d0)
    rep := 1
    qidx := 0
    line := false
    hist := .clock (BitVec.ofNat _ (s.env.now + d0 + waitsTime s.tu xs + d1)) :: .cancel c
      :: ((frameEvents 0 s.tu xs).reverse ++ .clock (BitVec.ofNat _ (s.env.now + d0)) :: s.hist)
    env := { s.env with
      sink := sk
      cancel := ck
      waits := wk
      drift := dk
      pin := false
      now := s.env.now + d0 + waitsTime s.tu xs + d1 } }

/-- CAL_MEASURE (R105), the clock staying below 2^64 ns. -/
theorem measure_tapes (s : State) (xs : List Nat) (sk : List Bool) (c : Bool) (ck : List Bool) (wk : List WaitAnswer)
    (d0 d1 : Nat) (dk : List Nat) (hp : s.phase = .cal) (hl : xs.length = 176)
    (hs : s.env.sink = List.replicate 176 true ++ sk) (hc : s.env.cancel = c :: ck)
    (hw : s.env.waits = xs.map .ends ++ wk) (hd : s.env.drift = d0 :: d1 :: dk)
    (hn : s.env.now + d0 + waitsTime s.tu xs + d1 < 2 ^ 64) :
    measure s = .ok ((waitsTime s.tu xs + d1) / 176 / 1000) (measured xs c sk ck wk d0 d1 dk s) := by
  have hpk : calParams.pack = 0 := by decide
  have e1 : openMeasure s = { s with
      t0 := BitVec.ofNat _ (s.env.now + d0)
      hist := .clock (BitVec.ofNat _ (s.env.now + d0)) :: s.hist
      env := { s.env with now := s.env.now + d0, drift := d1 :: dk } } := by
    simp [openMeasure, State.clockRead, State.clockNext, clockValue_lt (now := s.env.now + d0) (by omega), Env.nextDrift,
      hd, State.setT0, State.record, State.mapEnv, Env.advance, Env.tookDrift, drawsAfter]
  rw [measure, sendActive_cal (s := openMeasure s) hp xs sk c ck wk hl (by rw [e1]; exact hs) (by rw [e1]; exact hc)
    (by rw [e1]; exact hw), e1, Res.andThen_ok]
  simp only [closeMeasure, State.clockRead, State.clockNext, repetitionsSent, State.setRep, Env.nextDrift,
    List.headD_cons, List.flatMap_cons, List.flatMap_nil, List.append_nil]
  have h3 : clockValue (s.env.now + d0 + waitsTime s.tu xs + d1)
      = BitVec.ofNat _ (s.env.now + d0 + waitsTime s.tu xs + d1) := clockValue_lt hn
  have h4 : (BitVec.ofNat 64 (s.env.now + d0 + waitsTime s.tu xs + d1) - BitVec.ofNat 64 (s.env.now + d0)).toNat
      = waitsTime s.tu xs + d1 := by
    rw [BitVec.toNat_sub]
    simp only [BitVec.toNat_ofNat]
    omega
  rw [h3]
  simp [measOf, measured, h4, State.mapEnv, State.record, Env.advance, Env.tookDrift, drawsAfter, hp, State.active,
    hpk, sendEvents]

theorem waitsTime_replicate (tu : Micros) (n x : Nat) :
    waitsTime tu (List.replicate n x) = n * (1000 * tu.toNat + x) := by
  simp [waitsTime]

/-- The events of `n` slots: `n` commits, no clock read and no flag read. -/
theorem slotEvents_counts (w : LogicalWord) (tu : Micros) : ∀ (q : Nat) (xs : List Nat),
    (slotEvents w tu q xs).countP Event.isCommit = xs.length ∧ (slotEvents w tu q xs).countP Event.isClock = 0
      ∧ (slotEvents w tu q xs).countP Event.isCancel = 0
  | _, [] => ⟨rfl, rfl, rfl⟩
  | q, x :: xs => by
    obtain ⟨a, b, c⟩ := slotEvents_counts w tu (q + 1) xs
    refine ⟨?_, ?_, ?_⟩
    · rw [slotEvents, List.countP_cons, List.countP_cons, a]
      simp [Event.isCommit]
    · rw [slotEvents, List.countP_cons, List.countP_cons, b]
      simp [Event.isClock]
    · rw [slotEvents, List.countP_cons, List.countP_cons, c]
      simp [Event.isCancel]

/-- The counts of a history with a measurement's events on top. -/
theorem measured_counts (xs : List Nat) (c : Bool) (sk ck : List Bool) (wk : List WaitAnswer) (d0 d1 : Nat)
    (dk : List Nat) (s : State) :
    (measured xs c sk ck wk d0 d1 dk s).commits = s.commits + xs.length
      ∧ (measured xs c sk ck wk d0 d1 dk s).clockReads = s.clockReads + 2
      ∧ (measured xs c sk ck wk d0 d1 dk s).flagReads = s.flagReads + 1 := by
  obtain ⟨h1, h2, h3⟩ := slotEvents_counts 0 s.tu 0 xs
  simp only [State.commits, State.clockReads, State.flagReads, measured, frameEvents, List.countP_cons,
    List.countP_append, List.countP_reverse, h1, h2, h3, Event.isCommit, Event.isClock, Event.isCancel]
  simp only [Bool.false_eq_true, if_false, if_true]
  omega

/-- Where `k` iterations under a constant overhead of `x` ns a slot lead. -/
structure SteadyEnd (x k : Nat) (sk cs ck : List Bool) (wk : List WaitAnswer) (dk : List Nat) (s t : State) : Prop where
  phase : t.phase = .cal
  iter : t.iter.toNat = s.iter.toNat + k
  tu : t.tu.toNat = (steadyCorrection x)^[k] s.tu.toNat
  sink : t.env.sink = sk
  cancel : t.env.cancel = ck
  waits : t.env.waits = wk
  drift : t.env.drift = dk
  hist : t.hist = (calEvents x s.env.now s.tu.toNat cs).reverse ++ s.hist
  waiting : t.waiting = s.waiting
  commits : t.commits = s.commits + 176 * k
  clocks : t.clockReads = s.clockReads + 2 * k
  flags : t.flagReads = s.flagReads + k
  now : t.env.now ≤ s.env.now + 176 * k * (250000 + x)
  tuf : t.tuf = s.tuf
  last : k ≠ 0 → t.rep = 1 ∧ t.qidx = 0 ∧ t.line = false

theorem steadyCorrection_le (x tu : Nat) : steadyCorrection x tu ≤ 250 := by
  apply Nat.div_le_of_le_mul
  nlinarith [Nat.zero_le (x / 1000)]

theorem iteration_steady (s : State) (x : Nat) (sk : List Bool) (c : Bool) (ck : List Bool) (wk : List WaitAnswer)
    (dk : List Nat) (hp : s.phase = .cal) (hf : s.tuf = false) (htu : s.tu.toNat ≤ 250)
    (hx : x < 1000 → s.tu.toNat = 250) (hi : s.iter.toNat < 10)
    (hs : s.env.sink = List.replicate 176 true ++ sk) (hc : s.env.cancel = c :: ck)
    (hw : s.env.waits = List.replicate 176 (.ends x) ++ wk) (hd : s.env.drift = 0 :: 0 :: dk)
    (hn : s.env.now + 176 * (250000 + x) < 2 ^ 64) :
    ∃ t, iteration s = .ok () t ∧ SteadyEnd x 1 sk [c] ck wk dk s t
      ∧ t.env.now = s.env.now + 176 * (1000 * s.tu.toNat + x) := by
  have hlen : (List.replicate 176 x).length = 176 := List.length_replicate ..
  have hmap : (List.replicate 176 x).map WaitAnswer.ends = List.replicate 176 (.ends x) := List.map_replicate ..
  have htime := waitsTime_replicate s.tu 176 x
  rw [← hmap] at hw
  generalize hxs : List.replicate 176 x = xs at hlen hw htime
  have hm := measure_tapes s xs sk c ck wk 0 0 dk hp hlen hs hc hw hd (by rw [htime]; omega)
  have e : (waitsTime s.tu xs + 0) / 176 / 1000 = s.tu.toNat + x / 1000 := by
    rw [htime]
    omega
  rw [e] at hm
  have hne : s.tu.toNat + x / 1000 ≠ 0 := by
    rcases Nat.lt_or_ge x 1000 with h | h
    · rw [hx h]
      omega
    · omega
  have hq : correction s.tu (s.tu.toNat + x / 1000) = steadyCorrection x s.tu.toNat := rfl
  have hle := steadyCorrection_le x s.tu.toNat
  have hlt : correction s.tu (s.tu.toNat + x / 1000) < 2 ^ 32 := by
    rw [hq]
    omega
  have hcnt := measured_counts xs c sk ck wk 0 0 dk s
  rw [iteration, hm, Res.andThen_ok, correct_ok (s := measured xs c sk ck wk 0 0 dk s) hne hlt, Res.andThen_ok]
  refine ⟨_, rfl, ⟨hp, ?_, ?_, rfl, rfl, rfl, rfl, ?_, rfl, ?_, hcnt.2.1, hcnt.2.2, ?_, rfl, fun _ => ⟨rfl, rfl, rfl⟩⟩, ?_⟩
  · rw [setIter_iter, BitVec.toNat_add]
    simp [measured]
    omega
  · have h2 : ((measured xs c sk ck wk 0 0 dk s).writeTU
        (BitVec.ofNat _ (correction s.tu (s.tu.toNat + x / 1000)))).tu
        = BitVec.ofNat _ (correction s.tu (s.tu.toNat + x / 1000)) := by
      simp [State.writeTU, measured, hf]
    rw [setIter_tu]
    refine (congrArg BitVec.toNat h2).trans ?_
    rw [BitVec.toNat_ofNat, Nat.mod_eq_of_lt hlt, hq]
    rfl
  · change (measured xs c sk ck wk 0 0 dk s).hist = _
    simp [measured, calEvents, hxs, htime]
  · exact hcnt.1.trans (by rw [hlen])
  · change s.env.now + 0 + waitsTime s.tu xs + 0 ≤ _
    rw [htime]
    omega
  · change s.env.now + 0 + waitsTime s.tu xs + 0 = _
    rw [htime, Nat.add_zero, Nat.add_zero]

/-- `k` iterations (R108, R111). -/
theorem iterations_steady (x : Nat) : ∀ (k : Nat) (s : State) (sk cs ck : List Bool) (wk : List WaitAnswer)
    (dk : List Nat), s.phase = .cal → s.tuf = false → s.tu.toNat ≤ 250 → (x < 1000 → s.tu.toNat = 250) →
    s.iter.toNat + k ≤ 10 → cs.length = k → s.env.sink = List.replicate (176 * k) true ++ sk →
    s.env.cancel = cs ++ ck → s.env.waits = List.replicate (176 * k) (.ends x) ++ wk →
    s.env.drift = List.replicate (2 * k) 0 ++ dk → s.env.now + 176 * k * (250000 + x) < 2 ^ 64 →
    ∃ t, iterations k s = .ok () t ∧ SteadyEnd x k sk cs ck wk dk s t
  | 0, s, sk, cs, ck, wk, dk, hp, _, _, _, _, hl, hs, hc, hw, hd, _ => by
    obtain rfl : cs = [] := List.length_eq_zero_iff.mp hl
    exact ⟨s, rfl, ⟨hp, rfl, rfl, hs, hc, hw, hd, rfl, rfl, rfl, rfl, rfl, by omega, rfl, fun h => absurd rfl h⟩⟩
  | k + 1, s, sk, c :: cs, ck, wk, dk, hp, hf, htu, hx, hi, hl, hs, hc, hw, hd, hn => by
    have r1 : 176 * (k + 1) = 176 + 176 * k := by ring
    obtain ⟨t, e, h, hnow⟩ := iteration_steady s x (List.replicate (176 * k) true ++ sk) c (cs ++ ck)
      (List.replicate (176 * k) (.ends x) ++ wk) (List.replicate (2 * k) 0 ++ dk) hp hf htu hx (by omega)
      (by rw [hs, r1, List.replicate_add, List.append_assoc]) hc
      (by rw [hw, r1, List.replicate_add, List.append_assoc])
      (by rw [hd, Nat.mul_add, Nat.add_comm, List.replicate_add]; rfl) (by nlinarith)
    have hx2 : x < 1000 → t.tu.toNat = 250 := by
      intro h2
      rw [h.tu]
      simp [steadyCorrection, hx h2, Nat.div_eq_of_lt h2]
    obtain ⟨u, e2, h2⟩ := iterations_steady x k t sk cs ck wk dk h.phase (h.tuf.trans hf)
      (by rw [h.tu]; exact steadyCorrection_le x _) hx2 (by rw [h.iter]; omega) (by simpa using hl) h.sink h.cancel
      h.waits h.drift (by have := h.now; nlinarith)
    refine ⟨u, by rw [iterations, e]; exact e2, ⟨h2.phase, ?_, ?_, h2.sink, h2.cancel, h2.waits, h2.drift, ?_,
      h2.waiting.trans h.waiting, ?_, ?_, ?_, ?_, h2.tuf.trans h.tuf, fun _ => ?_⟩⟩
    · rw [h2.iter, h.iter]
      omega
    · rw [h2.tu, h.tu, Function.iterate_succ_apply]
      rfl
    · have htu2 : t.tu.toNat = steadyCorrection x s.tu.toNat := h.tu
      rw [h2.hist, h.hist, hnow, htu2]
      simp [calEvents]
    · rw [h2.commits, h.commits]
      omega
    · rw [h2.clocks, h.clocks]
      omega
    · rw [h2.flags, h.flags]
      omega
    · have := h2.now
      have := h.now
      nlinarith
    · rcases Nat.eq_zero_or_pos k with rfl | h0
      · cases e2
        exact h.last (by simp)
      · exact h2.last (by omega)

end Sys2Proof.Machine
end

