-- ==== Sys2Proof/Laws/Frame.lean ====
section
/-! SUPPORT. The frame format's small lemmas: the expansion level by level, the checksum as a number, the fields of the
logical word, the levels of a word slot by slot. -/

namespace Sys2Proof.Machine

/-! ### The expansion (40_frame_encoder.md section 5) -/

theorem flatMap_sym_length (l : List Bool) : (l.flatMap sym).length = 4 * l.length := by
  induction l with
  | nil => rfl
  | cons a l ih => rw [List.flatMap_cons, List.length_append, ih, List.length_cons]; simp [sym]; omega

theorem flatMap_sym_getElem? (l : List Bool) (i p : Nat) (hp : p < 4) :
    (l.flatMap sym)[4 * i + p]? = l[i]?.bind fun v => (sym v)[p]? := by
  induction l generalizing i with
  | nil => simp
  | cons a l ih =>
    cases i with
    | zero =>
      rw [List.flatMap_cons, List.getElem?_append_left (by simp [sym]; omega)]
      simp
    | succ i =>
      rw [List.flatMap_cons, List.getElem?_append_right (by simp [sym]; omega)]
      have : 4 * (i + 1) + p - (sym a).length = 4 * i + p := by simp [sym]; omega
      rw [this, ih]; simp

theorem expand_length {n : Nat} (x : BitVec n) : (expand x).length = 4 * n := by
  rw [expand, flatMap_sym_length]; simp [bitsMsb]

theorem bitsMsb_getElem? {n : Nat} (x : BitVec n) (i : Nat) (h : i < n) :
    (bitsMsb x)[i]? = some (x.getLsbD (n - 1 - i)) := by
  simp [bitsMsb, h, BitVec.getMsbD]

theorem expand_getElem? {n : Nat} (x : BitVec n) (i p : Nat) (h : i < n) (hp : p < 4) :
    (expand x)[4 * i + p]? = (sym (x.getLsbD (n - 1 - i)))[p]? := by
  rw [expand, flatMap_sym_getElem? _ _ _ hp, bitsMsb_getElem? x i h]; rfl

theorem bitsMsb_append {m n : Nat} (x : BitVec m) (y : BitVec n) : bitsMsb (x ++ y) = bitsMsb x ++ bitsMsb y := by
  apply List.ext_getElem?
  intro i
  rcases Nat.lt_or_ge i m with h | h
  · rw [List.getElem?_append_left (by simpa [bitsMsb] using h), bitsMsb_getElem? _ _ (by omega), bitsMsb_getElem? _ _ h,
      BitVec.getLsbD_append, if_neg (by omega)]
    congr 2; omega
  · rw [List.getElem?_append_right (by simpa [bitsMsb] using h)]
    rcases Nat.lt_or_ge i (m + n) with h2 | h2
    · rw [bitsMsb_getElem? _ _ h2, bitsMsb_getElem? _ _ (by simp [bitsMsb]; omega), BitVec.getLsbD_append, if_pos (by omega)]
      simp [bitsMsb]; congr 1; omega
    · rw [List.getElem?_eq_none (by simp [bitsMsb]; omega), List.getElem?_eq_none (by simp [bitsMsb]; omega)]

theorem expand_append {m n : Nat} (x : BitVec m) (y : BitVec n) : expand (x ++ y) = expand x ++ expand y := by
  rw [expand, bitsMsb_append, List.flatMap_append]; rfl

/-! ### The checksum (40_frame_encoder.md R71) -/

theorem chanModeByte_toNat (chan mode : Nibble) : (chanModeByte chan mode).toNat = 16 * chan.toNat + mode.toNat := by
  have h : (chanModeByte chan mode).toNat = (chan ++ mode : BitVec (4 + 4)).toNat := rfl
  have hm := mode.isLt
  rw [h, BitVec.toNat_append, ← Nat.shiftLeft_add_eq_or_of_lt hm, Nat.shiftLeft_eq]; omega

theorem checksumOf_toNat (tid : TidWord) (chan mode : Nibble) (str : Byte) :
    (checksumOf tid chan mode str).toNat
      = (tid.toNat / 256 + tid.toNat % 256 + (16 * chan.toNat + mode.toNat) + str.toNat) % 256 := by
  have h1 := tid.isLt
  have h2 := chan.isLt
  have h3 := mode.isLt
  have h4 := str.isLt
  simp only [checksumOf, BitVec.extractLsb'_toNat, BitVec.toNat_add, BitVec.toNat_setWidth, chanModeByte_toNat,
    Nat.shiftRight_eq_div_pow]
  omega

theorem getLsbD_append_lt {m n i : Nat} (x : BitVec m) (y : BitVec n) (h : i < n) :
    (x ++ y).getLsbD i = y.getLsbD i := by
  rw [BitVec.getLsbD_append, if_pos h]

theorem getLsbD_append_ge {m n i : Nat} (x : BitVec m) (y : BitVec n) (h : n ≤ i) :
    (x ++ y).getLsbD i = x.getLsbD (i - n) := by
  rw [BitVec.getLsbD_append, if_neg (by omega)]

/-! ### The fields of the logical word (30_encoding.md R57) -/

/-- Which field a bit of the concatenation belongs to. -/
theorem concatWord_getLsbD (tid : TidWord) (chan mode : Nibble) (str ck : Byte) (i : Nat) :
    (concatWord tid chan mode str ck).getLsbD i =
      if i < 2 then false else if i < 10 then ck.getLsbD (i - 2) else if i < 18 then str.getLsbD (i - 10)
      else if i < 22 then mode.getLsbD (i - 18) else if i < 26 then chan.getLsbD (i - 22)
      else tid.getLsbD (i - 26) := by
  have h : (concatWord tid chan mode str ck).getLsbD i
    = (tid ++ chan ++ mode ++ str ++ ck ++ (0#2) : BitVec (16 + 4 + 4 + 8 + 8 + 2)).getLsbD i := rfl
  rw [h]
  split_ifs with h1 h2 h3 h4 h5
  · rw [getLsbD_append_lt _ _ h1, BitVec.getLsbD_zero]
  · rw [getLsbD_append_ge _ _ (by omega), getLsbD_append_lt _ _ (by omega)]
  · rw [getLsbD_append_ge _ _ (by omega), getLsbD_append_ge _ _ (by omega), getLsbD_append_lt _ _ (by omega),
      show i - 2 - 8 = i - 10 by omega]
  · rw [getLsbD_append_ge _ _ (by omega), getLsbD_append_ge _ _ (by omega), getLsbD_append_ge _ _ (by omega),
      getLsbD_append_lt _ _ (by omega), show i - 2 - 8 - 8 = i - 18 by omega]
  · rw [getLsbD_append_ge _ _ (by omega), getLsbD_append_ge _ _ (by omega), getLsbD_append_ge _ _ (by omega),
      getLsbD_append_ge _ _ (by omega), getLsbD_append_lt _ _ (by omega), show i - 2 - 8 - 8 - 4 = i - 22 by omega]
  · rw [getLsbD_append_ge _ _ (by omega), getLsbD_append_ge _ _ (by omega), getLsbD_append_ge _ _ (by omega),
      getLsbD_append_ge _ _ (by omega), getLsbD_append_ge _ _ (by omega),
      show i - 2 - 8 - 8 - 4 - 4 = i - 26 by omega]

section
variable (tid : TidWord) (chan mode : Nibble) (str ck : Byte)

theorem extract_concatWord {k n : Nat} {x : BitVec n}
    (h : ∀ i, i < n → (concatWord tid chan mode str ck).getLsbD (k + i) = x.getLsbD i) :
    (concatWord tid chan mode str ck).extractLsb' k n = x := by
  apply BitVec.eq_of_getLsbD_eq
  intro i hi
  rw [BitVec.getLsbD_extractLsb', h i hi]
  simp [hi]

theorem wordTid_concatWord : wordTid (concatWord tid chan mode str ck) = tid :=
  extract_concatWord _ _ _ _ _ fun i _ => by
    rw [concatWord_getLsbD, if_neg (by omega), if_neg (by omega), if_neg (by omega), if_neg (by omega),
      if_neg (by omega), Nat.add_sub_cancel_left]

theorem wordChan_concatWord : wordChan (concatWord tid chan mode str ck) = chan :=
  extract_concatWord _ _ _ _ _ fun i _ => by
    rw [concatWord_getLsbD, if_neg (by omega), if_neg (by omega), if_neg (by omega), if_neg (by omega),
      if_pos (by omega), Nat.add_sub_cancel_left]

theorem wordMode_concatWord : wordMode (concatWord tid chan mode str ck) = mode :=
  extract_concatWord _ _ _ _ _ fun i _ => by
    rw [concatWord_getLsbD, if_neg (by omega), if_neg (by omega), if_neg (by omega), if_pos (by omega),
      Nat.add_sub_cancel_left]

theorem wordStr_concatWord : wordStr (concatWord tid chan mode str ck) = str :=
  extract_concatWord _ _ _ _ _ fun i _ => by
    rw [concatWord_getLsbD, if_neg (by omega), if_neg (by omega), if_pos (by omega), Nat.add_sub_cancel_left]

theorem wordCsum_concatWord : wordCsum (concatWord tid chan mode str ck) = ck :=
  extract_concatWord _ _ _ _ _ fun i _ => by
    rw [concatWord_getLsbD, if_neg (by omega), if_pos (by omega), Nat.add_sub_cancel_left]

theorem wordPost_concatWord : wordPost (concatWord tid chan mode str ck) = 0 :=
  extract_concatWord _ _ _ _ _ fun i _ => by
    rw [concatWord_getLsbD, if_pos (by omega)]
    exact (BitVec.getLsbD_zero ..).symm

end

/-- A word with the postfix 00 is the concatenation of its fields. -/
theorem concatWord_fields (w : LogicalWord) (h : wordPost w = 0) :
    concatWord (wordTid w) (wordChan w) (wordMode w) (wordStr w) (wordCsum w) = w := by
  apply BitVec.eq_of_getLsbD_eq
  intro i hi
  rw [concatWord_getLsbD]
  split_ifs with h1 h2 h3 h4 h5
  · have := congrArg (fun v : BitVec 2 => v.getLsbD i) h
    simp [wordPost, h1] at this
    simp [this]
  · rw [wordCsum, BitVec.getLsbD_extractLsb']; simp [show i - 2 < 8 by omega]; congr 1; omega
  · rw [wordStr, BitVec.getLsbD_extractLsb']; simp [show i - 10 < 8 by omega]; congr 1; omega
  · rw [wordMode, BitVec.getLsbD_extractLsb']; simp [show i - 18 < 4 by omega]; congr 1; omega
  · rw [wordChan, BitVec.getLsbD_extractLsb']; simp [show i - 22 < 4 by omega]; congr 1; omega
  · rw [wordTid, BitVec.getLsbD_extractLsb']; simp [show i - 26 < 16 by omega]; congr 1; omega

/-! ### The levels of a word (30_encoding.md R58, R60) -/

theorem wordLevels_length (w : LogicalWord) : (wordLevels w).length = 176 := by
  rw [wordLevels, List.length_append, expand_length]; rfl

theorem wordLevels_getElem? (w : LogicalWord) {q : Nat} (hq : q ≤ 175) : (wordLevels w)[q]? = some (levelAt w q) := by
  unfold wordLevels levelAt
  rcases Nat.lt_or_ge q 8 with h | h
  · rw [if_pos h, List.getElem?_append_left (by simpa [preLevels] using h)]
    interval_cases q <;> rfl
  · rw [if_neg (by omega), List.getElem?_append_right (by simpa [preLevels] using h)]
    have h2 : q - preLevels.length = 4 * ((q - 8) / 4) + (q - 8) % 4 := by simp [preLevels]; omega
    rw [h2, expand_getElem? _ _ _ (by omega) (by omega)]
    have h3 : (q - 8) % 4 < 4 := by omega
    have e : 42 - 1 - (q - 8) / 4 = 41 - (q - 8) / 4 := by omega
    rw [e]
    generalize (q - 8) % 4 = p at *
    interval_cases p <;> rfl

end Sys2Proof.Machine
end

