-- ==== Sys2Proof/Laws/PerInstr.lean ====
section
/-! SUPPORT. The statements made for every constructor of Instr. EncodingFits: the pattern of a row fits the space it is
read in (30_encoding.md R53 to R62); an operation has none (R69). -/

namespace Sys2Proof.Laws.EncodingFits

def Statement (i : Instr) : Prop := ∀ (sp : Space) (n : Nat), encode i = some (sp, n) → n < 2 ^ sp.width

theorem of_some {i : Instr} {sp : Space} {n : Nat} (h : encode i = some (sp, n)) (hn : n < 2 ^ sp.width) :
    Statement i := by
  intro sp' n' h'
  rw [h] at h'
  cases h'
  exact hn

theorem of_none {i : Instr} (h : encode i = none) : Statement i := by
  intro sp n h'
  rw [h] at h'
  cases h'

theorem pre : Statement .pre := of_some rfl (by decide)
theorem bit1 : Statement .bit1 := of_some rfl (by decide)
theorem bit0 : Statement .bit0 := of_some rfl (by decide)
theorem frame (w : LogicalWord) : Statement (.frame w) := of_some rfl w.isLt
theorem tid (v : TidWord) : Statement (.tid v) := of_some rfl v.isLt
theorem chan (v : Nibble) : Statement (.chan v) := of_some rfl v.isLt
theorem mode (v : Nibble) : Statement (.mode v) := of_some rfl v.isLt
theorem str (v : Byte) : Statement (.str v) := of_some rfl v.isLt
theorem csum (v : Byte) : Statement (.csum v) := of_some rfl v.isLt
theorem post : Statement .post := of_some rfl (by decide)
theorem chanChannel1 : Statement .chanChannel1 := of_some rfl (by decide)
theorem chanChannel2 : Statement .chanChannel2 := of_some rfl (by decide)
theorem chanChannel3 : Statement .chanChannel3 := of_some rfl (by decide)
theorem chanReserved3 : Statement .chanReserved3 := of_some rfl (by decide)
theorem modeCalDummy : Statement .modeCalDummy := of_some rfl (by decide)
theorem modeShock : Statement .modeShock := of_some rfl (by decide)
theorem modeVibrate : Statement .modeVibrate := of_some rfl (by decide)
theorem modeBeep : Statement .modeBeep := of_some rfl (by decide)
theorem checksum : Statement .checksum := of_none rfl
theorem pack : Statement .pack := of_none rfl
theorem slot (w : LogicalWord) (q : Byte) : Statement (.slot w q) := of_none rfl
theorem encode : Statement .encode := of_none rfl
theorem commit (l : Level) : Statement (.commit l) := of_none rfl
theorem wait (tu : Micros) : Statement (.wait tu) := of_none rfl
theorem qstep (w : LogicalWord) : Statement (.qstep w) := of_none rfl
theorem transmit (w : LogicalWord) : Statement (.transmit w) := of_none rfl
theorem send : Statement .send := of_none rfl
theorem calSeed : Statement .calSeed := of_none rfl
theorem calMeasure : Statement .calMeasure := of_none rfl
theorem calCorrect (meas : Nat) : Statement (.calCorrect meas) := of_none rfl
theorem calibrate : Statement .calibrate := of_none rfl
theorem runCal : Statement .runCal := of_none rfl
theorem runOvr : Statement .runOvr := of_none rfl
theorem calframe : Statement .calframe := of_none rfl
theorem pWrite (tid chan mode str rpt ovr : Nat) : Statement (.pWrite tid chan mode str rpt ovr) := of_none rfl
theorem start : Statement .start := of_none rfl
theorem reset : Statement .reset := of_none rfl
theorem abort (c : Cause) : Statement (.abort c) := of_none rfl

end Sys2Proof.Laws.EncodingFits
end

