-- ==== Sys2Proof/Laws/Tick.lean ====
section
/-! SUPPORT. Everything one step of the sequencer can do, said once: the end of a stage, a slot whose commit fails, a slot
whose wait never ends, a slot inside a frame, the last slot of a calibration frame with its three ends, the last slot of a real frame. -/

namespace Sys2Proof.Machine

section
variable (s : State)
@[simp] theorem beforeSlot_p : (beforeSlot s).p = s.p := by unfold beforeSlot; split <;> rfl
@[simp] theorem beforeSlot_written : (beforeSlot s).written = s.written := by unfold beforeSlot; split <;> rfl
@[simp] theorem beforeSlot_ovr : (beforeSlot s).ovr = s.ovr := by unfold beforeSlot; split <;> rfl
@[simp] theorem beforeSlot_phase : (beforeSlot s).phase = s.phase := by unfold beforeSlot; split <;> rfl
@[simp] theorem beforeSlot_iter : (beforeSlot s).iter = s.iter := by unfold beforeSlot; split <;> rfl
@[simp] theorem beforeSlot_qidx : (beforeSlot s).qidx = s.qidx := by unfold beforeSlot; split <;> rfl
@[simp] theorem beforeSlot_tu : (beforeSlot s).tu = s.tu := by unfold beforeSlot; split <;> rfl
@[simp] theorem beforeSlot_tuf : (beforeSlot s).tuf = s.tuf := by unfold beforeSlot; split <;> rfl
@[simp] theorem beforeSlot_line : (beforeSlot s).line = s.line := by unfold beforeSlot; split <;> rfl
@[simp] theorem beforeSlot_busy : (beforeSlot s).busy = s.busy := by unfold beforeSlot; split <;> rfl
@[simp] theorem beforeSlot_doneFlag : (beforeSlot s).doneFlag = s.doneFlag := by unfold beforeSlot; split <;> rfl
@[simp] theorem beforeSlot_fatalFlag : (beforeSlot s).fatalFlag = s.fatalFlag := by unfold beforeSlot; split <;> rfl
@[simp] theorem beforeSlot_cancelled : (beforeSlot s).cancelled = s.cancelled := by unfold beforeSlot; split <;> rfl
@[simp] theorem beforeSlot_cause : (beforeSlot s).cause = s.cause := by unfold beforeSlot; split <;> rfl
@[simp] theorem beforeSlot_waiting : (beforeSlot s).waiting = s.waiting := by unfold beforeSlot; split <;> rfl
@[simp] theorem beforeSlot_inputs : (beforeSlot s).inputs = s.inputs := by unfold beforeSlot; split <;> rfl
@[simp] theorem beforeSlot_out : (beforeSlot s).out = s.out := by unfold beforeSlot; split <;> rfl
@[simp] theorem beforeSlot_sink : (beforeSlot s).env.sink = s.env.sink := by unfold beforeSlot; split <;> rfl
@[simp] theorem beforeSlot_cancel : (beforeSlot s).env.cancel = s.env.cancel := by unfold beforeSlot; split <;> rfl
@[simp] theorem beforeSlot_waits : (beforeSlot s).env.waits = s.env.waits := by unfold beforeSlot; split <;> rfl
end

/-- Before slot 0 of a calibration frame the clock is read; elsewhere nothing happens. -/
theorem beforeSlot_cases (s : State) :
    (s.phase = .cal ∧ s.qidx = 0 ∧ beforeSlot s = (openMeasure s).setRep 0)
    ∨ (¬(s.phase = .cal ∧ s.qidx = 0) ∧ beforeSlot s = s) := by
  unfold beforeSlot
  by_cases h : s.phase = .cal ∧ s.qidx = 0
  · exact .inl ⟨h.1, h.2, by simp [h.1, h.2]⟩
  · exact .inr ⟨h, if_neg (by simpa using h)⟩

/-- The state at the second clock read of an iteration. -/
def frameClosed (s : State) : State := (endRepetition s).clockRead

/-- The measurement of the iteration. -/
def frameMeas (s : State) : Nat := measOf ((endRepetition s).clockNext - s.t0)

/-- The state after a correction that completed, before the stage may end. -/
def frameCorrected (s : State) : State :=
  ((frameClosed s).writeTU (BitVec.ofNat _ (correction s.tu (frameMeas s)))).setIter (s.iter + 1)

/-- The ends of a calibration frame (42_calibrator.md R105, R107, R108). -/
theorem afterCalFrame_cases (s : State) :
    (frameMeas s = 0 ∧ afterCalFrame s = .cut ((frameClosed s).takeFault .calDivideByZero))
    ∨ (frameMeas s ≠ 0 ∧ 2 ^ 32 ≤ correction s.tu (frameMeas s)
      ∧ afterCalFrame s = .cut ((frameClosed s).takeFault .calOverflow))
    ∨ (frameMeas s ≠ 0 ∧ correction s.tu (frameMeas s) < 2 ^ 32
      ∧ afterCalFrame s
        = .ok () (if 10 ≤ (s.iter + 1).toNat then (frameCorrected s).enterTx else frameCorrected s)) := by
  have ht : (frameClosed s).tu = s.tu := by simp [frameClosed]
  have hm : afterCalFrame s = (correct (frameMeas s) (frameClosed s)).andThen fun _ s =>
      .ok () (if 10 ≤ (s.setIter (s.iter + 1)).iter.toNat then (s.setIter (s.iter + 1)).enterTx
        else s.setIter (s.iter + 1)) := by
    simp only [afterCalFrame, closeMeasure, Res.andThen_ok, endRepetition_t0, frameMeas, frameClosed]
  rcases correct_cases (frameMeas s) (frameClosed s) with ⟨h0, h⟩ | ⟨h0, h1, h⟩ | ⟨h0, h1, h⟩
  · exact .inl ⟨h0, by rw [hm, h]; rfl⟩
  · exact .inr (.inl ⟨h0, ht ▸ h1, by rw [hm, h]; rfl⟩)
  · refine .inr (.inr ⟨h0, ht ▸ h1, ?_⟩)
    rw [hm, h]
    simp [frameCorrected, frameClosed]

/-- A next state of one step of the sequencer. -/
theorem tick_next {s t : State} (h : tick s = .next t) :
    (s.selected = none ∧ t = endStage s)
    ∨ (s.selected ≠ none ∧ s.qidx.toNat ≤ 175
      ∧ (((beforeSlot s).env.nextSink = false ∧ t = sinkFailed (beforeSlot s))
        ∨ ((beforeSlot s).env.nextSink = true ∧ t = slotHung s.active.pack (beforeSlot s))
        ∨ ∃ x, (beforeSlot s).env.nextSink = true
          ∧ ((s.qidx.toNat < 175 ∧ t = (slotDone s.active.pack x (beforeSlot s)).setQidx (s.qidx + 1))
            ∨ (s.qidx.toNat = 175 ∧ s.phase = .cal
              ∧ (afterCalFrame ((slotDone s.active.pack x (beforeSlot s)).setQidx 0)).outcome = .next t)
            ∨ (s.qidx.toNat = 175 ∧ s.phase = .tx
              ∧ (afterTxFrame ((slotDone s.active.pack x (beforeSlot s)).setQidx 0)).outcome = .next t)))) := by
  unfold tick at h
  cases hsel : s.selected with
  | none =>
    rw [hsel] at h
    cases h
    exact .inl ⟨rfl, rfl⟩
  | some i =>
    rw [hsel] at h
    refine .inr ⟨by simp, ?_⟩
    have hp : s.phase = .cal ∨ s.phase = .tx := by
      cases hp : s.phase <;> simp [State.selected, hp] at hsel <;> simp
    rcases quarterStep_cases s.active.pack (beforeSlot s) with ⟨hq, hs, x, _, e⟩ | ⟨hq, hs, e⟩ | ⟨hq, hs, _, e⟩ | ⟨_, e⟩ <;>
      simp only [e, Res.andThen_ok, Res.andThen_cut, Res.andThen_stuck, Res.outcome_cut, Res.outcome_stuck] at h
    · rw [beforeSlot_qidx] at hq
      refine ⟨hq, .inr (.inr ⟨x, hs, ?_⟩)⟩
      unfold afterSlot at h
      simp only [slotDone_qidx, beforeSlot_qidx, slotDone_phase, beforeSlot_phase] at h
      rcases Nat.lt_or_ge s.qidx.toNat 175 with h5 | h5
      · rw [if_pos h5] at h
        cases h
        exact .inl ⟨h5, rfl⟩
      · rw [if_neg (by omega)] at h
        rcases hp with hp | hp <;> rw [hp] at h
        · exact .inr (.inl ⟨by omega, hp, h⟩)
        · exact .inr (.inr ⟨by omega, hp, h⟩)
    · rw [beforeSlot_qidx] at hq
      cases h
      exact ⟨hq, .inl ⟨hs, rfl⟩⟩
    · rw [beforeSlot_qidx] at hq
      cases h
      exact ⟨hq, .inr (.inl ⟨hs, rfl⟩)⟩
    · cases h

/-- What a selected position says (30_encoding.md R69, 43_run_control.md R127). -/
theorem selected_ne_none {s : State} (h : s.selected ≠ none) :
    s.waiting = none ∧ ((s.phase = .cal ∧ s.iter.toNat < 10)
      ∨ (s.phase = .tx ∧ s.cancelled = false ∧ s.rep.toNat < s.p.rpt.toNat)) := by
  cases hp : s.phase <;> simp [State.selected, hp] at h
  · exact ⟨h.1, .inl ⟨rfl, h.2⟩⟩
  · exact ⟨h.1, .inr ⟨rfl, h.2.1, by simpa [BitVec.ule] using h.2.2⟩⟩

end Sys2Proof.Machine
end

