-- ==== Sys2Proof/Laws/Step.lean ====
section
/-! SUPPORT. Everything one step of the machine can do, said once: a pattern's row presents a result, a host action is
taken, or the sequencer goes on. Later proofs about every step cite step_next and unfold nothing. -/

namespace Sys2Proof.Machine

/-- A pattern decodes to a row of the FrameEncoder: it presents a result and changes nothing else (40_frame_encoder.md
R70). -/
theorem decode_presents {sp : Space} {n : Nat} {i : Instr} (h : decode sp n = .ok i) (s : State) :
    ∃ v, exec i s = .next (s.present v) := by
  unfold decode at h
  split at h
  · cases h
  · cases sp <;> simp only at h
    case symbol => unfold decodeSymbolPattern at h; split_ifs at h <;> cases h <;> exact ⟨_, rfl⟩
    case logicalWord => simp only [decodeLogicalWord] at h; split at h <;> cases h; exact ⟨_, rfl⟩
    case postField => split at h <;> cases h; exact ⟨_, rfl⟩
    case chanValue => unfold decodeChanValue at h; split at h <;> cases h <;> exact ⟨_, rfl⟩
    case modeValue => unfold decodeModeValue at h; split at h <;> cases h <;> exact ⟨_, rfl⟩
    all_goals cases h; exact ⟨_, rfl⟩

/-- A next state of one step. -/
theorem step_next {s t : State} (h : step s = .next t) :
    (∃ sp n v, s.input = .word sp n ∧ t = s.moveOn.present v)
    ∨ (∃ tid chan mode str rpt ovr, s.input = .pWrite tid chan mode str rpt ovr
      ∧ ((s.phase = .idle ∧ t = s.moveOn.loadParams (hostParams tid chan mode str rpt) (BitVec.ofNat _ ovr))
        ∨ (s.phase ≠ .idle ∧ t = s.moveOn)))
    ∨ (s.input = .start
      ∧ ((s.mayStart = true ∧ s.ovr = 0 ∧ t = beginCal s.moveOn) ∨ (s.mayStart = true ∧ s.ovr ≠ 0 ∧ t = beginOvr s.moveOn)
        ∨ (s.mayStart = false ∧ t = s.moveOn)))
    ∨ (s.input = .reset ∧ t = resetFrom s.moveOn)
    ∨ (s.input = .quiet ∧ tick s.moveOn = .next t) := by
  cases hi : s.input with
  | quiet => exact .inr (.inr (.inr (.inr ⟨rfl, step_of_quiet hi ▸ h⟩)))
  | word sp n =>
    cases hd : decode sp n with
    | error e => simp [step, hi, HostInput.operation, hd] at h
    | ok i =>
      obtain ⟨v, hv⟩ := decode_presents hd s.moveOn
      rw [step_of_operation (i := i) (by simp [hi, HostInput.operation, hd]), hv] at h
      cases h
      exact .inl ⟨_, _, v, rfl, rfl⟩
  | pWrite a b c d e f =>
    rw [step_of_operation (i := .pWrite a b c d e f) (by rw [hi]; rfl)] at h
    refine .inr (.inl ⟨a, b, c, d, e, f, rfl, ?_⟩)
    by_cases hp : s.phase = .idle
    · refine .inl ⟨hp, ?_⟩
      simp only [exec, execPWrite, moveOn_phase, hp, beq_self_eq_true, if_true] at h
      exact (Host.Outcome.next.inj h).symm
    · refine .inr ⟨hp, ?_⟩
      simp only [exec, execPWrite, moveOn_phase, beq_false_of_ne hp, Bool.false_eq_true, if_false] at h
      exact (Host.Outcome.next.inj h).symm
  | start =>
    rw [step_of_operation (i := .start) (by rw [hi]; rfl)] at h
    refine .inr (.inr (.inl ⟨rfl, ?_⟩))
    have hm : s.moveOn.mayStart = s.mayStart := rfl
    have ho : s.moveOn.ovr = s.ovr := rfl
    simp only [exec, execStart, hm, ho] at h
    split_ifs at h with h1 h2
    · exact .inl ⟨h1, h2, (Host.Outcome.next.inj h).symm⟩
    · exact .inr (.inl ⟨h1, h2, (Host.Outcome.next.inj h).symm⟩)
    · exact .inr (.inr ⟨by simpa using h1, (Host.Outcome.next.inj h).symm⟩)
  | reset =>
    rw [step_of_operation (i := .reset) (by rw [hi]; rfl)] at h
    exact .inr (.inr (.inr (.inl ⟨rfl, (Host.Outcome.next.inj h).symm⟩)))

end Sys2Proof.Machine
end

