-- ==== Sys2Proof/Tests/Slice0.lean ====
section
/-! SUPPORT. The model's own tests: ill-formed terms refused, patterns written out bit by bit from spec/, single steps with
the expected values of spec/95_test_vectors.md, and a state that meets the hypotheses of each statement. -/

namespace Sys2Proof.Tests

open Sys2Proof Sys2Proof.Machine

/-! ### Small states -/

/-- An environment with the given answers supplied. -/
def answers (sink cancel : List Bool) (waits : List WaitAnswer) (drift : List Nat) : Env :=
  { Env.initial with sink := sink, cancel := cancel, waits := waits, drift := drift }

/-- The parameters of 95_test_vectors.md V1. -/
def sample (rpt : RepeatCount) : Params := { tid := 0xB497, chan := 0, mode := 3, str := 0, rpt := rpt }

/-- `IDLE` with written parameters. -/
def ready (rpt : RepeatCount) (ovr : Micros) (e : Env) : State :=
  { State.reset with p := sample rpt, written := true, ovr := ovr, env := e }

/-- Phase `CAL`. -/
def inCal (tu : Micros) (qidx : BitVec 8) (e : Env) : State :=
  { ready 1 0 e with phase := .cal, busy := true, tu := tu, qidx := qidx }

/-- Phase `TX`. -/
def inTx (rpt rep : RepeatCount) (qidx : BitVec 8) (e : Env) : State :=
  { ready rpt 250 e with phase := .tx, busy := true, tu := 250, tuf := true, rep := rep, qidx := qidx }

/-- Phase `TX`, in the wait of slot `q`, which never ends. -/
def hungAt (q : BitVec 8) : State := { inTx 1 0 q Env.initial with waiting := some 250 }

/-- Phase `FATAL` after a SinkFault. -/
def inFatal : State :=
  { ready 1 250 Env.initial with phase := .fatal, fatalFlag := true, cause := 1, tu := 250, tuf := true }

/-- Phase `DONE`. -/
def inDone : State :=
  { ready 1 250 Env.initial with phase := .done, doneFlag := true, tu := 250, tuf := true, rep := 1 }

/-- A next state with a property. -/
def nextIs (o : Host.Outcome State Fault Refusal) (f : State → Bool) : Bool :=
  match o with
  | .next s => f s
  | .fault _ => false
  | .refused _ => false

/-- A refusal. -/
def refusedAs (o : Host.Outcome State Fault Refusal) (r : Refusal) : Bool :=
  match o with
  | .next _ => false
  | .fault _ => false
  | .refused r' => decide (r' = r)

/-! ### WellFormed refuses -/

theorem test_wellFormed_slot : wellFormed (.slot 0 175) = true ∧ wellFormed (.slot 0 176) = false := by decide
theorem test_wellFormed_frame_postfix : wellFormed (.frame 1) = false := by decide
/-- A word with another checksum than R71's is no ill-formed term (40_frame_encoder.md R82). -/
theorem test_wellFormed_frame_any_checksum :
    wellFormed (.frame 0x2D25C0C0138) = true ∧ wellFormed (.frame 0x2D25C0C013C) = true := by decide

/-! ### Patterns, bit by bit (30_encoding.md R53 to R62) -/

theorem test_decode_pre : decode .symbol 0b11111100 = .ok .pre := by decide
theorem test_decode_bit1 : decode .symbol 0b1110 = .ok .bit1 := by decide
theorem test_decode_bit0 : decode .symbol 0b1000 = .ok .bit0 := by decide
/-- V1: transmitterId 1011010010010111, channel 0000, mode 0011, strength 00000000, checksum 01001110, postfix 00. -/
theorem test_decode_frame :
    decode .logicalWord 0b1011010010010111_0000_0011_00000000_01001110_00 = .ok (.frame 0x2D25C0C0138) := by decide
/-- The same word with the checksum field 01001111. -/
theorem test_decode_frame_other_checksum :
    decode .logicalWord 0b1011010010010111_0000_0011_00000000_01001111_00 = .ok (.frame 0x2D25C0C013C) := by decide
/-- R66: a channel of 4 and a mode of 15 are sent verbatim. -/
theorem test_decode_unnamed_values :
    decode .chanValue 0b0100 = .ok (.chan 4) ∧ decode .modeValue 0b1111 = .ok (.mode 15) := by decide
theorem test_decode_tid : decode .tidField 0b1011010010010111 = .ok (.tid 0xB497) := by decide
theorem test_decode_chan : decode .chanField 0b0001 = .ok (.chan 1) := by decide
theorem test_decode_mode : decode .modeField 0b0011 = .ok (.mode 3) := by decide
theorem test_decode_str : decode .strField 0b00110010 = .ok (.str 50) := by decide
theorem test_decode_csum : decode .csumField 0b01001110 = .ok (.csum 0x4E) := by decide
theorem test_decode_post : decode .postField 0b00 = .ok .post := by decide
theorem test_decode_chanValues :
    decode .chanValue 0b0000 = .ok .chanChannel1 ∧ decode .chanValue 0b0001 = .ok .chanChannel2
      ∧ decode .chanValue 0b0010 = .ok .chanChannel3 ∧ decode .chanValue 0b0011 = .ok .chanReserved3 := by decide
theorem test_decode_modeValues :
    decode .modeValue 0b0000 = .ok .modeCalDummy ∧ decode .modeValue 0b0001 = .ok .modeShock
      ∧ decode .modeValue 0b0010 = .ok .modeVibrate ∧ decode .modeValue 0b0011 = .ok .modeBeep := by decide
theorem test_decodeTableWord :
    decodeTableWord 8 0xFC = some .pre ∧ decodeTableWord 8 0xE = some .bit1 ∧ decodeTableWord 8 0x8 = some .bit0
      ∧ decodeTableWord 8 0 = some .chanChannel1 ∧ decodeTableWord 8 0x32 = some (.str 50)
      ∧ decodeTableWord 16 0xB497 = some (.tid 0xB497) ∧ decodeTableWord 48 0x2D25C0C0138 = some (.frame 0x2D25C0C0138)
      ∧ decodeTableWord 48 1 = none := by decide
set_option maxRecDepth 4000 in
/-- R60, read back: the levels of V1's frame give its word; a level sequence without the preamble is no frame. -/
theorem test_decodeFrame :
    decodeFrame (wordLevels 0x2D25C0C0138) = .ok 0x2D25C0C0138
      ∧ decodeFrame (List.replicate 176 false) = .error .badPreamble := by decide

/-! ### FrameEncoder: one step each -/

def outOf (o : Host.Outcome State Fault Refusal) : Value :=
  match o with
  | .next s => s.out
  | .fault _ => .none
  | .refused _ => .none

/-- The first levels an operation presents, from `n` on. -/
def levelsFrom (n k : Nat) (o : Host.Outcome State Fault Refusal) : List Level :=
  match outOf o with
  | .levels ls => (ls.drop n).take k
  | .fieldValue _ ls => (ls.drop n).take k
  | .none | .level _ | .checksum _ | .word _ | .measured _ => []

/-- R73 to R75, R81. -/
theorem test_pre : levelsFrom 0 9 (exec .pre State.reset) = [true, true, true, true, true, true, false, false] := by
  decide
theorem test_bit1 : levelsFrom 0 9 (exec .bit1 State.reset) = [true, true, true, false] := by decide
theorem test_bit0 : levelsFrom 0 9 (exec .bit0 State.reset) = [true, false, false, false] := by decide
theorem test_post :
    levelsFrom 0 9 (exec .post State.reset) = [true, false, false, false, true, false, false, false] := by decide
/-- R76: transmitterId 1 gives fifteen 0 patterns and then one 1 pattern. -/
theorem test_tid_msb_first :
    levelsFrom 56 8 (exec (.tid 1) State.reset) = [true, false, false, false, true, true, true, false] := by decide
/-- R77: `Channel2` is HLLL HLLL HLLL HHHL. -/
theorem test_chan : levelsFrom 8 8 (exec (.chan 1) State.reset) = [true, false, false, false, true, true, true, false] :=
  by decide
/-- R78: `Beep` is HLLL HLLL HHHL HHHL. -/
theorem test_mode : levelsFrom 4 8 (exec (.mode 3) State.reset) = [true, false, false, false, true, true, true, false] :=
  by decide
/-- R79: 50 is HLLL HLLL HHHL HHHL HLLL HLLL HHHL HLLL. -/
theorem test_str : levelsFrom 20 12 (exec (.str 50) State.reset)
    = [true, false, false, false, true, true, true, false, true, false, false, false] := by decide
/-- R80: `8'h4E` is HLLL HHHL HLLL HLLL HHHL HHHL HHHL HLLL. -/
theorem test_csum : levelsFrom 0 12 (exec (.csum 0x4E) State.reset)
    = [true, false, false, false, true, true, true, false, true, false, false, false] := by decide
/-- R61, R62. -/
theorem test_chanChannel3 : outOf (exec .chanChannel3 State.reset) = .fieldValue 2 (expand 2#4) := by decide
theorem test_chanReserved3 : levelsFrom 8 8 (exec .chanReserved3 State.reset)
    = [true, true, true, false, true, true, true, false] := by decide
theorem test_modeCalDummy : levelsFrom 0 8 (exec .modeCalDummy State.reset)
    = [true, false, false, false, true, false, false, false] := by decide
theorem test_modeBeep : levelsFrom 8 8 (exec .modeBeep State.reset)
    = [true, true, true, false, true, true, true, false] := by decide
/-- R71: `(0xB4 + 0x97 + 0x03 + 0x00) mod 256 = 0x4E`. -/
theorem test_checksum : outOf (exec .checksum (ready 1 0 Env.initial)) = .checksum 0x4E := by decide
/-- V1, and the calibration dummy in phase `CAL` (10_state.md R30). -/
theorem test_pack : outOf (exec .pack (ready 1 0 Env.initial)) = .word 0x2D25C0C0138 := by decide
theorem test_pack_in_cal : outOf (exec .pack (inCal 250 0 Env.initial)) = .word 0 := by decide
/-- R82's examples: slots 9 and 13 of V1's word. -/
theorem test_slot : outOf (exec (.slot 0x2D25C0C0138 9) State.reset) = .level true
    ∧ outOf (exec (.slot 0x2D25C0C0138 13) State.reset) = .level false := by decide
theorem test_slot_out_of_range : refusedAs (exec (.slot 0 176) State.reset) .slotOutOfRange = true := by decide
/-- V1 begins HHHHHHLL HHHL HLLL. -/
theorem test_frame : levelsFrom 0 16 (exec (.frame 0x2D25C0C0138) State.reset)
    = [true, true, true, true, true, true, false, false, true, true, true, false, true, false, false, false] := by decide
/-- V1 ends with the checksum's last bit and the postfix: HLLL HLLL HLLL. -/
theorem test_encode : levelsFrom 164 12 (exec .encode (ready 1 0 Env.initial))
    = [true, false, false, false, true, false, false, false, true, false, false, false] := by decide

/-! ### PhaseTransmitter -/

/-- R88: a commit of the level already there is an event; a commit that fails leaves `LINE`. -/
theorem test_commit : nextIs (exec (.commit false) (inTx 1 0 7 (answers [true] [] [] []))) (fun t =>
    t.hist == [.commit false] && t.line == false && t.qidx == 7) = true := by decide
theorem test_commit_fails : nextIs (exec (.commit true) (inTx 1 0 7 (answers [false] [] [] []))) (fun t =>
    t.phase == .fatal && t.cause == 1 && t.line == false && t.hist == [.fault .sinkFault]) = true := by decide
/-- R89: `Wait(250)` without overhead; a wait that never ends. -/
theorem test_wait : nextIs (exec (.wait 250) (inTx 1 0 0 (answers [] [] [.ends 0] []))) (fun t =>
    t.hist == [.wait 250 250000] && t.env.now == 250000) = true := by decide
theorem test_wait_never_ends : nextIs (exec (.wait 7) (inTx 1 0 0 (answers [] [] [.never] []))) (fun t =>
    t.waiting == some 7 && t.phase == .tx && t.busy && t.hist == [] && t.ports.waitReq && t.ports.waitUs == 7) = true := by
  decide
/-- R123: the commit before the endless wait stays; the hung core ignores a start, and a reset leads out of it. -/
theorem test_hang : nextIs (core.run 3 { inTx 3 1 8 (answers [true] [] [.never] []) with inputs := [.quiet, .start] })
    (fun t => t.waiting == some 250 && t.line && t.hist == [.commit true] && t.qidx == 8 && t.busy && t.phase == .tx)
    = true := by decide
theorem test_hang_reset : nextIs (exec .reset { inTx 3 1 8 Env.initial with waiting := some 250 }) (fun t =>
    t.waiting == none && t.phase == .idle && !t.busy) = true := by decide
/-- V30: slot 6 is low; the commit comes before the wait. -/
theorem test_qstep : nextIs (exec (.qstep 0) { inTx 1 0 6 (answers [true] [] [.ends 5] []) with line := true })
    (fun t => t.hist == [.wait 250 250005, .commit false] && t.line == false && t.qidx == 6) = true := by decide
theorem test_qstep_fails : nextIs (exec (.qstep 0) (inTx 1 0 9 (answers [false] [] [.ends 5] []))) (fun t =>
    t.hist == [.fault .sinkFault] && t.env.waits == [.ends 5] && t.qidx == 9) = true := by decide
/-- R95: the sink fails at slot 2. -/
theorem test_transmit_cut : nextIs (exec (.transmit 0) (inTx 1 0 0 (answers [true, true, false] [] [.ends 0, .ends 1] [])))
    (fun t => t.phase == .fatal && t.qidx == 2 && t.line == true && t.hist
      == [.fault .sinkFault, .wait 250 250001, .commit true, .wait 250 250000, .commit true]) = true := by decide
/-- V32: `P.REPEAT = 0` sends nothing. -/
theorem test_send_nothing : nextIs (exec .send (inTx 0 0 0 Env.initial)) (fun t => t.hist == [] && t.rep == 0) = true := by
  decide
/-- V34: one frame done, the sink fails at slot 9 of the next. -/
theorem test_step_sinkFault : nextIs (step { inTx 3 1 9 (answers [false] [] [] []) with line := true }) (fun t =>
    t.phase == .fatal && t.fatalFlag && !t.busy && t.cause == 1 && t.rep == 1 && t.qidx == 9 && t.line) = true := by
  decide
/-- R93: the last slot of the first of three repetitions, the flag read true: `DONE` and `CANCELLED`. -/
theorem test_step_cancelled : nextIs (step (inTx 3 0 175 (answers [true] [true] [.ends 0] []))) (fun t =>
    t.phase == .done && t.cancelled && t.rep == 1 && t.qidx == 0 && t.line == false) = true := by decide
/-- V32: the flag read true after the last repetition is no cancellation. -/
theorem test_step_last_repetition : nextIs (step (inTx 1 0 175 (answers [true] [true] [.ends 0] []))) (fun t =>
    t.phase == .done && !t.cancelled && t.doneFlag && t.rep == 1) = true := by decide

/-! ### Calibrator -/

theorem test_calSeed : nextIs (exec .calSeed (inCal 0 0 Env.initial)) (fun t => t.tu == 250 && t.iter == 0) = true := by
  decide
/-- V20. -/
theorem test_measOf : measOf 175999 = 0 ∧ measOf 176000 = 1 ∧ measOf 44175999 = 250 ∧ measOf 44176000 = 251 := by decide
/-- R105: the clock is read before the frame; the sink fails at the first slot. -/
theorem test_calMeasure_cut : nextIs (exec .calMeasure (inCal 250 0 (answers [false] [] [] [7]))) (fun t =>
    t.t0 == 7 && t.cause == 1 && t.hist == [.fault .sinkFault, .clock 7]) = true := by decide
/-- V21: 250 and 262 give 238; 4 294 967 295 and 249 overflow. -/
theorem test_calCorrect : nextIs (exec (.calCorrect 262) (inCal 250 0 Env.initial)) (fun t => t.tu == 238) = true := by
  decide
theorem test_calCorrect_faults :
    nextIs (exec (.calCorrect 249) (inCal 4294967295 0 Env.initial)) (fun t => t.cause == 3 && t.tu == 4294967295) = true
      ∧ nextIs (exec (.calCorrect 0) (inCal 4294967295 0 Env.initial)) (fun t => t.cause == 2) = true := by decide
theorem test_calframe_only_in_cal : refusedAs (exec .calframe (inTx 1 0 0 Env.initial)) .notSelected = true := by decide
/-- V22: the last slot of a calibration frame that took 45 760 000 ns in all, with `TU = 250`: `TU` becomes 240. -/
theorem test_step_calibration_frame_ends :
    nextIs (step { inCal 250 175 (answers [true] [false] [.ends 10000] [0]) with
        t0 := 1000, env := { answers [true] [false] [.ends 10000] [0] with now := 1000 + 45500000 } })
      (fun t => t.phase == .cal && t.tu == 240 && t.iter == 1 && t.rep == 1 && t.qidx == 0) = true := by decide
/-- R127: the tenth iteration ends phase `CAL` and freezes `TU`. -/
theorem test_step_calibration_ends :
    nextIs (step { inCal 250 175 (answers [true] [true] [.ends 0] [0]) with
        iter := 9, env := { answers [true] [true] [.ends 0] [0] with now := 43750000 } })
      (fun t => t.phase == .tx && t.tuf && t.tu == 250 && t.iter == 10 && t.rep == 0 && !t.cancelled) = true := by decide

/-! ### Run control -/

/-- P5 (a). -/
theorem test_runOvr_repeat_zero : nextIs (exec .runOvr (ready 0 250 Env.initial)) (fun t =>
    t.phase == .done && t.doneFlag && t.tu == 250 && t.tuf && t.hist == [] && !t.cancelled) = true := by decide
theorem test_runCal_cut : nextIs (exec .runCal (ready 1 0 (answers [false] [] [] [0]))) (fun t =>
    t.phase == .fatal && t.tu == 250 && t.iter == 0 && t.hist == [.fault .sinkFault, .clock 0]) = true := by decide
/-- R64: a strength of 300 is stored as 44; V40: the last write counts. -/
theorem test_pWrite : nextIs (exec (.pWrite 0x1234 1 1 300 2 0) (ready 1 250 Env.initial)) (fun t =>
    t.p == { tid := 0x1234, chan := 1, mode := 1, str := 44, rpt := 2 } && t.ovr == 0 && t.written) = true := by decide
theorem test_pWrite_ignored : nextIs (exec (.pWrite 1 1 1 1 1 1) (inTx 1 0 0 Env.initial)) (fun t =>
    t.p == sample 1 && t.ovr == 250) = true := by decide
/-- V40. -/
theorem test_start_unwritten : nextIs (exec .start State.reset) (fun t => t == State.reset) = true := by decide
theorem test_start_override : nextIs (exec .start (ready 1 1 Env.initial)) (fun t =>
    t.phase == .tx && t.busy && t.tu == 1 && t.tuf && t.iter == 0 && t.hist == []) = true := by decide
theorem test_reset_while_busy : nextIs (exec .reset (inTx 3 1 9 Env.initial)) (fun t =>
    t.phase == .idle && !t.busy && !t.written && t.rep == 0 && t.qidx == 0 && t.tu == 0 && !t.tuf) = true := by decide
theorem test_abort : nextIs (exec (.abort .calOverflow) (inCal 250 3 Env.initial)) (fun t =>
    t.phase == .fatal && t.cause == 3 && t.qidx == 3 && t.tu == 250 && !t.busy) = true := by decide
theorem test_abort_cause_and_phase : refusedAs (exec (.abort .calOverflow) (inTx 1 0 0 Env.initial)) .notSelected = true := by
  decide

/-! ### States that meet the hypotheses of the statements

One theorem for each statement of Certificates/Slice0/Obligations.lean that has hypotheses, and one value for each clause,
at the ends of its range. -/

theorem witness_DecodeOfEncode :
    wellFormed (.frame 0x2D25C0C0138) = true
      ∧ encode (.frame 0x2D25C0C0138) = some (.logicalWord, 0x2D25C0C0138) := by decide

theorem witness_EncodeOfDecode :
    decode .modeValue 3 = .ok .modeBeep ∧ decode .tidField 65535 = .ok (.tid 0xFFFF)
      ∧ decode .chanValue 4 = .ok (.chan 4) ∧ decode .modeValue 15 = .ok (.mode 15) := by
  decide

theorem witness_NonRowsRejectedByName :
    ((0 : Nat) < 256 ∧ (0 : Nat) ≠ 0xFC ∧ (0 : Nat) ≠ 0xE ∧ (0 : Nat) ≠ 0x8)
      ∧ ((255 : Nat) < 256 ∧ (255 : Nat) ≠ 0xFC ∧ (255 : Nat) ≠ 0xE ∧ (255 : Nat) ≠ 0x8)
      ∧ wordPost 1 ≠ 0 ∧ wordPost 4 = 0 ∧ ((3 : Nat) < 4 ∧ (3 : Nat) ≠ 0)
      ∧ ((4 : Nat) ≤ 15 ∧ (15 : Nat) < 16) ∧ 2 ^ Space.postField.width ≤ 4 := by decide

theorem witness_FrameReadBackFromLevels : wordPost 0x2D25C0C0138 = 0 ∧ wordPost 4 = 0 := by decide

theorem witness_StepPerformsInput :
    ((State.reset.withInput (.word .symbol 0xFC)).input = .word .symbol 0xFC ∧ decode .symbol 0xFC = .ok .pre)
      ∧ (State.reset.withInput (.pWrite 1 2 3 4 5 6)).input = .pWrite 1 2 3 4 5 6
      ∧ (State.reset.withInput .start).input = .start ∧ (State.reset.withInput .reset).input = .reset
      ∧ State.reset.input = .quiet := by
  decide

theorem witness_TableWordIsPerformed : decodeTableWord 16 1 = some (.tid 1) := by decide

theorem witness_SequencerPerformsQstep :
    (∃ t, exec (.qstep 0) (inCal 250 1 (answers [true] [] [.ends 0] [])).moveOn = .next t ∧ t.phase = .cal
        ∧ t.waiting = none)
      ∧ (∃ t, exec (.qstep 0) (inCal 250 174 (answers [false] [] [] [])).moveOn = .next t ∧ t.phase = .fatal)
      ∧ (∃ t, exec (.qstep 0) (inCal 250 1 (answers [true] [] [.never] [])).moveOn = .next t ∧ t.waiting ≠ none)
      ∧ (inCal 250 174 (answers [true] [] [.ends 0] [])).input = .quiet
      ∧ (inCal 250 1 (answers [true] [] [.ends 0] [])).selected = some (.qstep 0)
      ∧ (inCal 250 174 (answers [false] [] [] [])).selected = some (.qstep 0)
      ∧ (inCal 250 1 (answers [true] [] [.never] [])).active.pack = 0 := by
  exact ⟨⟨_, rfl, rfl, rfl⟩, ⟨_, rfl, rfl⟩, ⟨_, rfl, nofun⟩, rfl, rfl, rfl, rfl⟩

theorem witness_CoreWaitsOutsideARun :
    (State.reset.input = .quiet ∧ State.reset.inRun = false) ∧ (inFatal.input = .quiet ∧ inFatal.inRun = false)
      ∧ (inDone.input = .quiet ∧ inDone.inRun = false) := by decide

theorem witness_TokenRowsExpandMsbFirst :
    (∃ i : Instr, i = .chan 15 ∨ i = .mode 15) ∧ (∃ i : Instr, i = .str 255 ∨ i = .csum 255)
      ∧ (15 : Nat) < 16 ∧ (3 : Nat) < 4 ∧ (7 : Nat) < 8 := ⟨⟨_, .inl rfl⟩, ⟨_, .inr rfl⟩, by decide⟩

theorem witness_FieldValueRows :
    (Instr.modeBeep, 3#4) ∈ [(Instr.chanChannel1, 0#4), (.chanChannel2, 1#4), (.chanChannel3, 2#4),
      (.chanReserved3, 3#4), (.modeCalDummy, 0#4), (.modeShock, 1#4), (.modeVibrate, 2#4), (.modeBeep, 3#4)] := by decide

theorem witness_PackAndEncodeInjective : (sample 1).pack = (sample 2).pack ∧ (sample 1).encode = (sample 2).encode :=
  ⟨rfl, rfl⟩

theorem witness_SlotRow :
    (0#8).toNat < 6 ∧ (5#8).toNat < 6 ∧ (6 ≤ (6#8).toNat ∧ (7#8).toNat < 8)
      ∧ (8#8).toNat = 8 + 4 * 0 + 0 ∧ (175#8).toNat = 8 + 4 * 41 + 3 ∧ 175 < (176#8).toNat ∧ 175 < (255#8).toNat := by
  decide

theorem witness_EncodeRow_FrameRow : (0#8).toNat ≤ 175 ∧ (175#8).toNat ≤ 175 := by decide

theorem witness_EncodeIsTheTokensInOrder :
    exec .checksum (ready 1 0 Env.initial) = .next ((ready 1 0 Env.initial).present (.checksum 0x4E)) := rfl

theorem witness_ActiveParameters : (inCal 250 0 Env.initial).phase = .cal ∧ inDone.phase ≠ .cal := by decide

theorem witness_CommitRow :
    (inCal 250 0 (answers [true] [] [] [])).mayAct = true ∧ (inCal 250 0 (answers [true] [] [] [])).env.nextSink = true
      ∧ (inTx 1 0 0 (answers [false] [] [] [])).mayAct = true
      ∧ (inTx 1 0 0 (answers [false] [] [] [])).env.nextSink = false := by
  refine ⟨rfl, rfl, rfl, rfl⟩

theorem witness_WaitRow :
    (inTx 1 0 0 (answers [] [] [.ends 0] [])).mayAct = true
      ∧ (inTx 1 0 0 (answers [] [] [.ends 0] [])).env.nextWait = .ends 0 := ⟨rfl, rfl⟩

theorem witness_WaitThatNeverEnds :
    ((inTx 1 0 0 (answers [] [] [.never] [])).mayAct = true
        ∧ (inTx 1 0 0 (answers [] [] [.never] [])).env.nextWait = .never)
      ∧ ((inCal 250 175 (answers [true] [] [.never] [])).mayAct = true
        ∧ (inCal 250 175 (answers [true] [] [.never] [])).qidx.toNat ≤ 175
        ∧ (inCal 250 175 (answers [true] [] [.never] [])).env.nextSink = true
        ∧ (inCal 250 175 (answers [true] [] [.never] [])).env.tookSink.nextWait = .never)
      ∧ (hungAt 0).waiting ≠ none ∧ (hungAt 175).inputs = [] :=
  ⟨⟨rfl, rfl⟩, ⟨rfl, by decide, rfl, rfl⟩, nofun, rfl⟩

theorem witness_QstepRow :
    ((inTx 1 0 175 (answers [true] [] [.ends 3] [])).mayAct = true
        ∧ (inTx 1 0 175 (answers [true] [] [.ends 3] [])).qidx.toNat ≤ 175
        ∧ (inTx 1 0 175 (answers [true] [] [.ends 3] [])).env.nextSink = true
        ∧ (inTx 1 0 175 (answers [true] [] [.ends 3] [])).env.tookSink.nextWait = .ends 3)
      ∧ ((inTx 1 0 0 (answers [false] [] [] [])).mayAct = true
        ∧ (inTx 1 0 0 (answers [false] [] [] [])).env.nextSink = false) :=
  ⟨⟨rfl, by decide, rfl, rfl⟩, rfl, rfl⟩

/-- The answers of `n` slots without a fault, each `x` ns longer than asked. -/
def slots (n x : Nat) (cancel : List Bool) (drift : List Nat) : Env :=
  answers (List.replicate n true) cancel (List.replicate n (.ends x)) drift

theorem slots_sink (n x : Nat) (c : List Bool) (d : List Nat) : (slots n x c d).sink = List.replicate n true ++ [] :=
  (List.append_nil _).symm

theorem slots_waits (n x : Nat) (c : List Bool) (d : List Nat) :
    (slots n x c d).waits = List.replicate n (.ends x) ++ [] := (List.append_nil _).symm

theorem slots_waits_map (n x : Nat) (c : List Bool) (d : List Nat) :
    (slots n x c d).waits = (List.replicate n x).map .ends ++ [] := by
  rw [List.map_replicate]
  exact slots_waits n x c d

theorem witness_TransmitRow :
    (inTx 1 0 0 (slots 176 5 [] [])).mayAct = true ∧ (List.replicate 176 5).length = 176
      ∧ (inTx 1 0 0 (slots 176 5 [] [])).env.sink = List.replicate 176 true ++ []
      ∧ (inTx 1 0 0 (slots 176 5 [] [])).env.waits = (List.replicate 176 5).map .ends ++ [] :=
  ⟨rfl, List.length_replicate .., slots_sink .., slots_waits_map ..⟩

/-- The answers of a frame that the sink cuts at slot `q`. -/
def cutAt (q : Nat) : Env := answers (List.replicate q true ++ [false]) [] ((List.replicate q 0).map .ends) []

/-- At the first slot and at the last. -/
theorem witness_TransmitStopsAtTheFailingSlot :
    ((inTx 1 0 0 (cutAt 0)).mayAct = true ∧ ([] : List Nat).length = 0
        ∧ (inTx 1 0 0 (cutAt 0)).env.sink = List.replicate 0 true ++ false :: []
        ∧ (inTx 1 0 0 (cutAt 0)).env.waits = ([] : List Nat).map .ends ++ [])
      ∧ ((List.replicate 175 0).length = 175
        ∧ (inTx 1 0 0 (cutAt 175)).env.sink = List.replicate 175 true ++ false :: []
        ∧ (inTx 1 0 0 (cutAt 175)).env.waits = (List.replicate 175 0).map .ends ++ []) :=
  ⟨⟨rfl, rfl, rfl, rfl⟩, List.length_replicate .., rfl, (List.append_nil _).symm⟩

/-- The first of five repetitions read as cancelled; one repetition of one, not cancelled. -/
theorem witness_SendRow :
    ((inTx 5 0 0 (slots 176 0 [true] [])).mayAct = true ∧ [(List.replicate 176 0, true)].length = 1
        ∧ 1 ≤ (inTx 5 0 0 (slots 176 0 [true] [])).active.rpt.toNat
        ∧ (∀ r ∈ [(List.replicate 176 0, true)], r.1.length = 176)
        ∧ [(List.replicate 176 0, true)].map Prod.snd = List.replicate (1 - 1) false ++ [true]
        ∧ (inTx 5 0 0 (slots 176 0 [true] [])).env.sink = List.replicate (176 * 1) true ++ []
        ∧ (inTx 5 0 0 (slots 176 0 [true] [])).env.cancel = [(List.replicate 176 0, true)].map Prod.snd ++ []
        ∧ (inTx 5 0 0 (slots 176 0 [true] [])).env.waits
          = ([(List.replicate 176 0, true)].flatMap Prod.fst).map .ends ++ [])
      ∧ 1 = (inTx 1 0 0 (slots 176 0 [false] [])).active.rpt.toNat := by
  refine ⟨⟨rfl, rfl, by decide, fun r hr => ?_, rfl, slots_sink .., rfl, ?_⟩, rfl⟩
  · rw [List.mem_singleton.mp hr, List.length_replicate]
  · rw [List.flatMap_cons, List.flatMap_nil, List.append_nil]
    exact slots_waits_map ..

theorem witness_SendNothing : (inTx 0 0 0 Env.initial).mayAct = true ∧ (inTx 0 0 0 Env.initial).active.rpt = 0 := by decide

theorem witness_TransmitterFrame :
    (∃ t, exec (.commit true) (inTx 1 0 0 (answers [true] [] [] [])) = .next t)
      ∧ (∃ t, exec (.wait 1) (inTx 1 0 0 (answers [] [] [.ends 0] [])) = .next t)
      ∧ (∃ t, exec (.qstep 0) (inTx 1 0 0 (answers [false] [] [] [])) = .next t)
      ∧ (∃ t, exec (.transmit 0) (inTx 1 0 0 (answers [false] [] [] [])) = .next t)
      ∧ (∃ t, exec .send (inTx 0 0 0 Env.initial) = .next t)
      ∧ (∃ t, exec .calframe (inCal 250 0 (answers [false] [] [] [])) = .next t) :=
  ⟨⟨_, rfl⟩, ⟨_, rfl⟩, ⟨_, rfl⟩, ⟨_, rfl⟩, ⟨_, rfl⟩, ⟨_, rfl⟩⟩

theorem witness_OperationsOnlyWhereSelected :
    State.reset.inRun = false ∧ (inTx 1 0 0 Env.initial).phase ≠ .cal ∧ State.reset.mayStart = false
      ∧ (hungAt 3).waiting ≠ none
      ∧ (ready 1 250 Env.initial).ovr ≠ 0 ∧ (ready 1 0 Env.initial).ovr = 0 := by decide

theorem witness_CalSeedRow : (inCal 0 0 Env.initial).phase = .cal ∧ (inCal 0 0 Env.initial).waiting = none
      ∧ (inCal 0 0 Env.initial).tuf = false := by decide

theorem witness_CalMeasureRow_CalframeRow :
    (inCal 250 0 (slots 176 5 [true] [1, 2])).phase = .cal ∧ (inCal 250 0 (slots 176 5 [true] [1, 2])).waiting = none
      ∧ (List.replicate 176 5).length = 176
      ∧ (inCal 250 0 (slots 176 5 [true] [1, 2])).env.sink = List.replicate 176 true ++ []
      ∧ (inCal 250 0 (slots 176 5 [true] [1, 2])).env.cancel = true :: []
      ∧ (inCal 250 0 (slots 176 5 [true] [1, 2])).env.waits = (List.replicate 176 5).map .ends ++ []
      ∧ (inCal 250 0 (slots 176 5 [true] [1, 2])).env.drift = 1 :: 2 :: []
      ∧ (inCal 250 0 (slots 176 5 [true] [1, 2])).env.now + 1
          + waitsTime (inCal 250 0 (slots 176 5 [true] [1, 2])).tu (List.replicate 176 5) + 2 < 2 ^ 64 := by
  refine ⟨rfl, rfl, List.length_replicate .., slots_sink .., rfl, slots_waits_map .., rfl, ?_⟩
  rw [waitsTime_replicate]
  decide

theorem witness_CalCorrectRow :
    (inCal 4294967295 0 Env.initial).phase = .cal ∧ (inCal 4294967295 0 Env.initial).waiting = none
      ∧ (inCal 4294967295 0 Env.initial).tuf = false
      ∧ 2 ^ 32 ≤ 250 * (inCal 4294967295 0 Env.initial).tu.toNat / 249
      ∧ 250 * (inCal 4294967295 0 Env.initial).tu.toNat / 250 < 2 ^ 32 := by decide

/-- The state from which ten iterations run under a constant overhead of 10 000 ns a slot (V22). -/
def steady (n : Nat) : State := inCal 0 0 (slots n 10000 (List.replicate 10 false) (List.replicate 20 0))

theorem witness_CalibrateUnderConstantOverhead :
    (steady 1760).phase = .cal ∧ (steady 1760).waiting = none ∧ (steady 1760).tuf = false ∧ (List.replicate 10 false).length = 10
      ∧ (steady 1760).env.sink = List.replicate 1760 true ++ []
      ∧ (steady 1760).env.cancel = List.replicate 10 false ++ []
      ∧ (steady 1760).env.waits = List.replicate 1760 (.ends 10000) ++ []
      ∧ (steady 1760).env.drift = List.replicate 20 0 ++ []
      ∧ (steady 1760).env.now + 1760 * (250000 + 10000) < 2 ^ 64 := by
  exact ⟨rfl, rfl, rfl, rfl, slots_sink .., rfl, slots_waits .., rfl, by decide⟩

/-- A calibration that completes below the clock's bound, one that a SinkFault ends, and a measurement that completes. -/
theorem witness_CalibrationBounds :
    (∃ t, exec .calibrate (steady 1760) = .next t ∧ t.phase = .cal ∧ t.waiting = none
        ∧ t.env.now < 2 ^ 64)
      ∧ (∃ t, exec .calibrate (inCal 250 0 (answers [false] [] [] [0])) = .next t ∧ t.env.now < 2 ^ 64)
      ∧ (∃ t m, exec .calMeasure (inCal 250 0 (slots 176 5 [true] [1, 2])) = .next t ∧ t.phase = .cal
        ∧ t.waiting = none ∧ t.out = .measured m ∧ t.env.now < 2 ^ 64) := by
  refine ⟨?_, ⟨_, rfl, by decide⟩, ?_⟩
  · obtain ⟨hp, _, _, _, hs, hc, hw, hd, hn⟩ := witness_CalibrateUnderConstantOverhead
    obtain ⟨t, e, h⟩ := iterations_steady 10000 10 (seed (steady 1760)) [] (List.replicate 10 false) [] [] [] hp rfl
      (by decide) (by decide) (by decide) rfl hs hc hw hd hn
    refine ⟨t, ?_, h.phase, h.waiting, Nat.lt_of_le_of_lt h.now hn⟩
    change (iterations 10 (seed (steady 1760))).outcome = _
    rw [e]
    rfl
  · obtain ⟨hp, _, hl, hs, hc, hw, hd, hn⟩ := witness_CalMeasureRow_CalframeRow
    have e := measure_tapes _ _ _ _ _ _ _ _ _ hp hl hs hc hw hd hn
    have h : exec .calMeasure (inCal 250 0 (slots 176 5 [true] [1, 2]))
        = ((measure (inCal 250 0 (slots 176 5 [true] [1, 2]))).andThen fun meas s =>
          .ok () (s.present (.measured meas)) : Res Unit).outcome := rfl
    rw [e, Res.andThen_ok, Res.outcome_ok] at h
    exact ⟨_, _, h, hp, rfl, rfl, hn⟩

theorem witness_CalibratorFrame :
    (∃ t, exec .calSeed (inCal 0 0 Env.initial) = .next t)
      ∧ (∃ t, exec .calMeasure (inCal 250 0 (answers [false] [] [] [0])) = .next t)
      ∧ (∃ t, exec (.calCorrect 0) (inCal 250 0 Env.initial) = .next t)
      ∧ (∃ t, exec .calibrate (inCal 250 0 (answers [false] [] [] [0])) = .next t)
      ∧ (∃ t, exec .calSeed { inCal 7 0 Env.initial with tuf := true } = .next t) :=
  ⟨⟨_, rfl⟩, ⟨_, rfl⟩, ⟨_, rfl⟩, ⟨_, rfl⟩, ⟨_, rfl⟩⟩

theorem witness_PWriteRow : State.reset.phase = .idle ∧ inDone.phase ≠ .idle := by decide

theorem witness_StartRow :
    ((ready 1 0 Env.initial).phase = .idle ∧ (ready 1 0 Env.initial).written = true
        ∧ (ready 1 0 Env.initial).tuf = false ∧ (ready 1 0 Env.initial).ovr = 0)
      ∧ ((ready 1 1 Env.initial).phase = .idle ∧ (ready 1 1 Env.initial).ovr ≠ 0)
      ∧ (State.reset.phase = .idle ∧ State.reset.written = false) ∧ inFatal.phase ≠ .idle := by decide

theorem witness_AbortRow :
    (inTx 1 0 0 Env.initial).phase = .tx ∧ (inTx 1 0 0 Env.initial).waiting = none
      ∧ (inCal 250 0 Env.initial).phase = .cal ∧ (inCal 250 0 Env.initial).waiting = none
      ∧ ∃ t, exec (.abort .calOverflow) (inCal 250 0 Env.initial) = .next t ∧ t.inputs = [] :=
  ⟨rfl, rfl, rfl, rfl, _, rfl, rfl⟩

theorem witness_RunOvrRow :
    (ready 5 250 (slots 176 0 [true] [])).phase = .idle ∧ (ready 5 250 (slots 176 0 [true] [])).written = true
      ∧ (ready 5 250 (slots 176 0 [true] [])).tuf = false ∧ (ready 5 250 (slots 176 0 [true] [])).ovr ≠ 0
      ∧ 1 ≤ (ready 5 250 (slots 176 0 [true] [])).p.rpt.toNat
      ∧ [(List.replicate 176 0, true)].map Prod.snd = List.replicate (1 - 1) false ++ [true]
      ∧ (ready 5 250 (slots 176 0 [true] [])).env.sink = List.replicate (176 * 1) true ++ []
      ∧ (ready 5 250 (slots 176 0 [true] [])).env.cancel = [(List.replicate 176 0, true)].map Prod.snd ++ []
      ∧ (ready 5 250 (slots 176 0 [true] [])).env.waits
        = ([(List.replicate 176 0, true)].flatMap Prod.fst).map .ends ++ []
      ∧ 1 = (ready 1 250 (slots 176 0 [false] [])).p.rpt.toNat := by
  refine ⟨rfl, rfl, rfl, by decide, by decide, rfl, slots_sink .., rfl, ?_, rfl⟩
  rw [List.flatMap_cons, List.flatMap_nil, List.append_nil]
  exact slots_waits_map ..

theorem witness_RunCalRow :
    (ready 0 0 (steady 1760).env).phase = .idle ∧ (ready 0 0 (steady 1760).env).written = true
      ∧ (ready 0 0 (steady 1760).env).tuf = false ∧ (ready 0 0 (steady 1760).env).cancelled = false
      ∧ (ready 0 0 (steady 1760).env).ovr = 0 ∧ (List.replicate 10 false).length = 10
      ∧ (ready 0 0 (steady 1760).env).env.sink
        = List.replicate (1760 + 176 * (ready 0 0 (steady 1760).env).p.rpt.toNat) true ++ []
      ∧ (ready 0 0 (steady 1760).env).env.cancel = List.replicate 10 false
        ++ (List.replicate (ready 0 0 (steady 1760).env).p.rpt.toNat false ++ [])
      ∧ (ready 0 0 (steady 1760).env).env.waits
        = List.replicate (1760 + 176 * (ready 0 0 (steady 1760).env).p.rpt.toNat) (.ends 10000) ++ []
      ∧ (ready 0 0 (steady 1760).env).env.drift = List.replicate 20 0 ++ []
      ∧ (ready 0 0 (steady 1760).env).env.now + 1760 * (250000 + 10000) < 2 ^ 64 := by
  exact ⟨rfl, rfl, rfl, rfl, rfl, rfl, slots_sink .., rfl, slots_waits .., rfl, by decide⟩

theorem witness_RunWithRepeatZero :
    (ready 0 1 Env.initial).phase = .idle ∧ (ready 0 1 Env.initial).written = true
      ∧ (ready 0 1 Env.initial).tuf = false ∧ (ready 0 1 Env.initial).ovr ≠ 0 ∧ (ready 0 1 Env.initial).p.rpt = 0 := by
  decide

/-- The invariant holds in a state of each phase, those inside a frame too. -/
theorem witness_inv_ready (rpt : RepeatCount) (ovr : Micros) (e : Env) : Inv (ready rpt ovr e) := by
  constructor <;> simp [ready, State.reset, State.inRun]

theorem witness_inv_inCal (e : Env) : Inv (inCal 250 174 e) := by
  constructor <;> simp [inCal, ready, State.reset, State.inRun]

theorem witness_inv_inTx (e : Env) : Inv (inTx 3 1 175 e) := by
  constructor <;> simp [inTx, ready, sample, State.reset, State.inRun]

theorem witness_inv_hungAt : Inv (hungAt 175) := by
  constructor <;> simp [hungAt, inTx, ready, sample, State.reset, State.inRun]

theorem witness_inv_inFatal : Inv inFatal := by
  constructor <;> simp [inFatal, ready, State.reset, State.inRun]

theorem witness_inv_inDone : Inv inDone := by
  constructor <;> simp [inDone, ready, sample, State.reset, State.inRun]

theorem witness_StartThenStepsIsRun :
    (Inv (ready 1 0 Env.initial) ∧ (ready 1 0 Env.initial).inputs = [] ∧ (ready 1 0 Env.initial).mayStart = true)
      ∧ (Inv (ready 1 250 Env.initial) ∧ (ready 1 250 Env.initial).mayStart = true) :=
  ⟨⟨witness_inv_ready .., rfl, rfl⟩, witness_inv_ready .., rfl⟩

/-- A slot inside a calibration frame, and the last slot of a real frame. -/
theorem witness_StepKeepsInv :
    (∃ t, Inv (inCal 250 174 (answers [true] [] [.ends 0] [])) ∧ step (inCal 250 174 (answers [true] [] [.ends 0] []))
        = .next t)
      ∧ (∃ t, Inv (inTx 3 1 175 (answers [true] [false] [.ends 0] []))
        ∧ step (inTx 3 1 175 (answers [true] [false] [.ends 0] [])) = .next t) :=
  ⟨⟨_, witness_inv_inCal _, rfl⟩, _, witness_inv_inTx _, rfl⟩

theorem witness_OnlyListedTransitions :
    (∃ t, step (inTx 3 1 175 (answers [true] [true] [.ends 0] [])) = .next t ∧ t.phase = .done)
      ∧ (∃ t, (inDone.withInput .reset).input = .reset ∧ step (inDone.withInput .reset) = .next t ∧ t.phase = .idle) :=
  ⟨⟨_, rfl, rfl⟩, _, rfl, rfl, rfl⟩

theorem witness_TimingUnitFrozen :
    ∃ t, (inTx 3 1 175 (answers [true] [false] [.ends 0] [])).tuf = true
      ∧ step (inTx 3 1 175 (answers [true] [false] [.ends 0] [])) = .next t
      ∧ (inTx 3 1 175 (answers [true] [false] [.ends 0] [])).input ≠ .reset := ⟨_, rfl, rfl, by decide⟩

/-- A p_write in phase `TX`, and a start in `IDLE`. -/
theorem witness_ParametersStable :
    (∃ t, step ((inTx 3 1 0 Env.initial).withInput (.pWrite 0 0 0 0 0 0)) = .next t
        ∧ ((inTx 3 1 0 Env.initial).withInput (.pWrite 0 0 0 0 0 0)).input ≠ .reset
        ∧ ((inTx 3 1 0 Env.initial).withInput (.pWrite 0 0 0 0 0 0)).phase ≠ .idle)
      ∧ (∃ t, step ((ready 1 0 Env.initial).withInput .start) = .next t
        ∧ ((ready 1 0 Env.initial).withInput .start).phase = .idle
        ∧ ∀ a b c d e f, ((ready 1 0 Env.initial).withInput .start).input ≠ .pWrite a b c d e f) :=
  ⟨⟨_, rfl, by decide, by decide⟩, _, rfl, rfl, nofun⟩

theorem witness_FinalPhasesAreFinal :
    (∃ t, inFatal.phase = .fatal ∧ (inFatal.withInput .start).input ≠ .reset
        ∧ step (inFatal.withInput .start) = .next t)
      ∧ (∃ t, inDone.phase = .done ∧ step (inDone.withInput (.word .symbol 0xE)) = .next t) :=
  ⟨⟨_, rfl, by decide, rfl⟩, _, rfl, rfl⟩

theorem witness_HistoryOnlyGrows_ClockNeverGoesBack :
    ∃ t, step (inCal 250 174 (answers [true] [] [.ends 0] [])) = .next t
      ∧ (inCal 250 174 (answers [true] [] [.ends 0] [])).input ≠ .reset := ⟨_, rfl, by decide⟩

/-- Slots 0, 1 and 174, and the last slot with and without a sink failure. -/
theorem witness_FlagReadOnlyBetweenFrames :
    (∃ t, step (inCal 250 0 (answers [true] [] [.ends 0] [0])) = .next t)
      ∧ (∃ t, step (inCal 250 1 (answers [true] [] [.ends 0] [])) = .next t)
      ∧ (∃ t, step (inCal 250 174 (answers [true] [] [.ends 0] [])) = .next t)
      ∧ (∃ t, step (inTx 3 1 175 (answers [true] [false] [.ends 0] [])) = .next t
        ∧ (inTx 3 1 175 (answers [true] [false] [.ends 0] [])).selected ≠ none)
      ∧ (∃ t, step (inTx 3 1 175 (answers [false] [] [] [])) = .next t ∧ t.cause = 1)
      ∧ (∃ t, step (inTx 3 1 175 (answers [true] [] [.never] [])) = .next t ∧ t.waiting ≠ none)
      ∧ (inCal 250 0 (answers [true] [] [.ends 0] [0])).input = .quiet :=
  ⟨⟨_, rfl⟩, ⟨_, rfl⟩, ⟨_, rfl⟩, ⟨_, rfl, by decide⟩, ⟨_, rfl, rfl⟩, ⟨_, rfl, nofun⟩, rfl⟩

/-- The start of a calibrated run, and the step of its first slot. -/
theorem witness_StepKeepsWholeFrames :
    (∃ t, WholeFrames (ready 1 0 Env.initial) ∧ step (State.withInput (ready 1 0 Env.initial) .start) = .next t)
      ∧ (∃ t, WholeFrames { inCal 250 1 (answers [true] [] [.ends 0] []) with hist := [.commit true] }
        ∧ Inv { inCal 250 1 (answers [true] [] [.ends 0] []) with hist := [.commit true] }
        ∧ step { inCal 250 1 (answers [true] [] [.ends 0] []) with hist := [.commit true] } = .next t) := by
  refine ⟨⟨_, rfl, rfl⟩, _, rfl, ?_, rfl⟩
  constructor <;> simp [inCal, ready, State.reset, State.inRun]

theorem witness_StepKeepsLineAgreement :
    ∃ t, LineAgrees { inCal 250 1 (answers [true] [] [.ends 0] []) with line := true }
      ∧ Inv { inCal 250 1 (answers [true] [] [.ends 0] []) with line := true }
      ∧ step { inCal 250 1 (answers [true] [] [.ends 0] []) with line := true } = .next t := by
  refine ⟨_, rfl, ?_, rfl⟩
  constructor <;> simp [inCal, ready, State.reset, State.inRun]

end Sys2Proof.Tests
end

section
/-! The active parameters (10_state.md R30). -/

namespace Sys2Proof.Machine

/-- The phases in which the parameter registers are active: all but `CAL`. -/
theorem active_of_ne_cal {s : State} (h : s.phase ≠ .cal) : s.active = s.p := by
  unfold State.active
  split
  · next hcal => exact absurd hcal h
  all_goals rfl

/-- The calibration dummy packs to the word 0 (30_encoding.md R69). -/
@[simp] theorem calParams_pack : calParams.pack = 0 := by decide

/-- Settles O23: `CAL` by the dummy's own fields and word, the other phases by `active_of_ne_cal`. -/
theorem activeParameters : Obligations.ActiveParameters := by
  intro s
  refine ⟨fun hcal => ?_, active_of_ne_cal⟩
  rw [active_of_cal hcal]
  exact ⟨rfl, calParams_pack⟩

end Sys2Proof.Machine
end

section
/-! The FrameEncoder's rows (40_frame_encoder.md): what each presents, the closed form of a slot's level, and the
obligations about SLOT, the fixed symbols, CHECKSUM, PACK and ENCODE. -/

namespace Sys2Proof.Machine

/-! ### What a row presents (R70) -/

section
variable (s : State)

theorem exec_pre : exec .pre s = .next (s.present (.levels preLevels)) := rfl
theorem exec_bit1 : exec .bit1 s = .next (s.present (.levels (sym true))) := rfl
theorem exec_bit0 : exec .bit0 s = .next (s.present (.levels (sym false))) := rfl
theorem exec_tid (v : TidWord) : exec (.tid v) s = .next (s.present (.levels (expand v))) := rfl
theorem exec_chan (v : Nibble) : exec (.chan v) s = .next (s.present (.levels (expand v))) := rfl
theorem exec_mode (v : Nibble) : exec (.mode v) s = .next (s.present (.levels (expand v))) := rfl
theorem exec_str (v : Byte) : exec (.str v) s = .next (s.present (.levels (expand v))) := rfl
theorem exec_csum (v : Byte) : exec (.csum v) s = .next (s.present (.levels (expand v))) := rfl
theorem exec_post : exec .post s = .next (s.present (.levels postLevels)) := rfl
theorem exec_checksum : exec .checksum s = .next (s.present (.checksum s.active.checksum)) := rfl
theorem exec_pack : exec .pack s = .next (s.present (.word s.active.pack)) := rfl
theorem exec_encode : exec .encode s = .next (s.present (.levels s.active.encode)) := rfl

end

/-- Two results presented in the same state are the same result. -/
theorem present_inj {s : State} {u v : Value} (h : s.present u = s.present v) : u = v :=
  congrArg State.out h

/-! ### SLOT (R82) -/

section
variable (w : LogicalWord) {q : Byte} (s : State)

theorem exec_slot_of_le (h : q.toNat ≤ 175) :
    exec (.slot w q) s = .next (s.present (.level (levelAt w q.toNat))) := by
  show execSlot w q s = _
  rw [execSlot, frameLevel_of_le h]
  rfl

theorem exec_slot_of_gt (h : 175 < q.toNat) : exec (.slot w q) s = .refused .slotOutOfRange := by
  show execSlot w q s = _
  rw [execSlot, frameLevel_of_gt h]

end

theorem levelAt_of_lt_six (w : LogicalWord) {q : Nat} (h : q < 6) : levelAt w q = true := by
  rw [levelAt, if_pos (by omega), decide_eq_true h]

theorem levelAt_six_seven (w : LogicalWord) {q : Nat} (h6 : 6 ≤ q) (h8 : q < 8) : levelAt w q = false := by
  rw [levelAt, if_pos h8, decide_eq_false (Nat.not_lt.mpr h6)]

/-- Slot `8 + 4b + p` is level `p` of the symbol of bit `41 - b` (R60). -/
theorem levelAt_symbol (w : LogicalWord) (b : Nat) {p : Nat} (hp : p < 4) :
    levelAt w (8 + 4 * b + p) = if p = 0 then true else if p = 3 then false else w.getLsbD (41 - b) := by
  have hb : (8 + 4 * b + p - 8) / 4 = b := by omega
  have hr : (8 + 4 * b + p - 8) % 4 = p := by omega
  rw [levelAt, if_neg (by omega), hb, hr]

/-- Settles O18: the preamble's high and low slots, the symbols' slots, and the refusal of R41. -/
theorem slotRow : Obligations.SlotRow := by
  intro w q s
  refine ⟨fun h => ?high, fun h6 h8 => ?low, fun b p hb hp hq => ?symbol, exec_slot_of_gt w s⟩
  case high => rw [exec_slot_of_le w s (by omega), levelAt_of_lt_six w h]
  case low => rw [exec_slot_of_le w s (by omega), levelAt_six_seven w h6 h8]
  case symbol => rw [exec_slot_of_le w s (by omega), hq, levelAt_symbol w b hp]

/-! ### The fixed symbols, CHECKSUM, PACK and ENCODE -/

/-- Settles O11: the levels of R73, R74, R75 and R81 are written in the rows. -/
theorem fixedSymbolRows : Obligations.FixedSymbolRows := fun s =>
  ⟨exec_pre s, exec_bit1 s, exec_bit0 s, exec_post s⟩

/-- Settles O14: the low 8 bits of the 10-bit sum are the sum modulo 256 (`checksumOf_toNat`). -/
theorem checksumRow : Obligations.ChecksumRow := fun s =>
  ⟨s.active.checksum, exec_checksum s, checksumOf_toNat ..⟩

/-- Settles O15: each field is read back from the concatenation of R57, with the active checksum in it. -/
theorem packRow : Obligations.PackRow := fun s =>
  ⟨s.active.pack, s.active.checksum, exec_pack s, exec_checksum s, wordTid_concatWord .., wordChan_concatWord ..,
    wordMode_concatWord .., wordStr_concatWord .., wordCsum_concatWord .., wordPost_concatWord ..⟩

/-- CHECKSUM presents nothing but the checksum of the active parameters. -/
theorem eq_checksum_of_exec {s : State} {ck : Byte} (h : exec .checksum s = .next (s.present (.checksum ck))) :
    ck = s.active.checksum := by
  rw [exec_checksum] at h
  injection h with hs
  injection present_inj hs with hck
  exact hck.symm

/-- Settles O21: the checksum presented is the one ENCODE expands, and ENCODE appends the tokens in this order. -/
theorem encodeIsTheTokensInOrder : Obligations.EncodeIsTheTokensInOrder := by
  intro s ck h
  obtain rfl := eq_checksum_of_exec h
  exact ⟨_, _, _, _, _, _, _, exec_pre s, exec_tid s _, exec_chan s _, exec_mode s _, exec_str s _, exec_csum s _,
    exec_post s, exec_encode s⟩

end Sys2Proof.Machine
end

section
/-! The PhaseTransmitter's rows of one slot (41_phase_transmitter.md): Commit, Wait and QSTEP in a run. -/

namespace Sys2Proof.Machine

/-! ### The row is its primitive wherever the sequencer can act (30_encoding.md R69) -/

section
variable {s : State}

theorem exec_commit (l : Level) (h : s.mayAct = true) : exec (.commit l) s = (commitLevel l s).outcome := by
  show execCommit l s = _
  rw [execCommit, h, whenSelected_true]

theorem exec_wait (tu : Micros) (h : s.mayAct = true) : exec (.wait tu) s = (waitFor tu s).outcome := by
  show execWait tu s = _
  rw [execWait, h, whenSelected_true]

theorem exec_qstep (w : LogicalWord) (h : s.mayAct = true) : exec (.qstep w) s = (quarterStep w s).outcome := by
  show execQstep w s = _
  rw [execQstep, h, whenSelected_true]

/-! ### Commit (R88) -/

theorem exec_commit_drives (l : Level) (h : s.mayAct = true) (hs : s.env.nextSink = true) :
    exec (.commit l) s = .next (((s.mapEnv Env.tookSink).driveLine l).record (.commit l)) := by
  rw [exec_commit l h, commitLevel_ok l hs, Res.outcome_ok]

theorem exec_commit_fails (l : Level) (h : s.mayAct = true) (hs : s.env.nextSink = false) :
    exec (.commit l) s = .next (sinkFailed s) := by
  rw [exec_commit l h, commitLevel_fails l hs, Res.outcome_cut]

/-- Settles O24: a commit drives the line, or ends in the SinkFault of `sinkFailed`. -/
theorem commitRow : Obligations.CommitRow := fun l _ h =>
  ⟨exec_commit_drives l h, exec_commit_fails l h⟩

/-! ### Wait (R89) -/

/-- With no bound on the excess (`OVH_MAX_NS`, log 24), a wait that ends lasts the requested time and the answered excess. -/
theorem waitFor_ends (tu : Micros) {x : Nat} (hx : s.env.nextWait = .ends x) :
    waitFor tu s = .ok () (((s.mapEnv Env.tookWait).mapEnv (Env.advance (1000 * tu.toNat + x))).record
      (.wait tu (1000 * tu.toNat + x))) := by
  rw [waitFor, hx]

theorem exec_wait_ends (tu : Micros) {x : Nat} (h : s.mayAct = true) (hx : s.env.nextWait = .ends x) :
    exec (.wait tu) s = .next (((s.mapEnv Env.tookWait).mapEnv (Env.advance (1000 * tu.toNat + x))).record
      (.wait tu (1000 * tu.toNat + x))) := by
  rw [exec_wait tu h, waitFor_ends tu hx, Res.outcome_ok]

/-- Settles O25: the duration is the requested time and the excess the environment answers. -/
theorem waitRow : Obligations.WaitRow := fun tu _ h x hx =>
  ⟨1000 * tu.toNat + x, Nat.le_add_right .., rfl, exec_wait_ends tu h hx⟩

/-! ### QSTEP (R91) -/

variable (w : LogicalWord)

/-- The registers after a slot that was committed and waited for, as one record: the wait's environment is the commit's. -/
theorem slotDone_eq (x : Nat) (s : State) : slotDone w x s =
    { s with line := levelAt w s.qidx.toNat,
             hist := .wait s.tu (1000 * s.tu.toNat + x) :: .commit (levelAt w s.qidx.toNat) :: s.hist,
             env := { s.env.tookSink.tookWait with
                        pin := levelAt w s.qidx.toNat, now := s.env.now + (1000 * s.tu.toNat + x) } } := by
  simp only [slotDone, State.mapEnv, State.driveLine, State.record, Env.advance, Env.setPin, Env.tookSink, Env.tookWait]

theorem exec_qstep_done {x : Nat} (h : s.mayAct = true) (hq : s.qidx.toNat ≤ 175) (hs : s.env.nextSink = true)
    (hw : s.env.tookSink.nextWait = .ends x) : exec (.qstep w) s = .next (slotDone w x s) := by
  rw [exec_qstep w h, quarterStep_done hq hs hw, Res.outcome_ok]

theorem exec_qstep_fails (h : s.mayAct = true) (hq : s.qidx.toNat ≤ 175) (hs : s.env.nextSink = false) :
    exec (.qstep w) s = .next (sinkFailed s) := by
  rw [exec_qstep w h, quarterStep_fails hq hs, Res.outcome_cut]

end

/-- Settles O26: after a good commit the slot's wait follows it in the history; after a failed one QSTEP ends where the
commit alone ends, in `sinkFailed`, with no wait taken. -/
theorem qstepRow : Obligations.QstepRow := by
  intro w s h hq
  refine ⟨fun x hs hw => ?done, fun hs => ?failed⟩
  case done => rw [exec_qstep_done w h hq hs hw, slotDone_eq]
  case failed =>
    have hfail := exec_qstep_fails w h hq hs
    exact ⟨hfail.trans (exec_commit_fails _ h hs).symm, sinkFailed s, hfail, sinkFailed_phase s, sinkFailed_hist s,
      sinkFailed_now s, sinkFailed_waits s, sinkFailed_line s, sinkFailed_qidx s⟩

end Sys2Proof.Machine
end

section
/-! The Calibrator's rows that read nothing of the environment (42_calibrator.md): CAL_SEED and CAL_CORRECT in phase `CAL`. -/

namespace Sys2Proof.Machine

section
variable {s : State}

theorem mayCalibrate_iff : s.mayCalibrate = true ↔ s.phase = .cal ∧ s.waiting = none := by
  simp [State.mayCalibrate]

/-- The write enable of `TU` is open while `TUF = 0` (10_state.md R32). -/
theorem writeTU_of_not_frozen (v : Micros) (h : s.tuf = false) : s.writeTU v = { s with tu := v } := by
  simp [State.writeTU, h]

/-! ### The row is its operation wherever the Calibrator can act (30_encoding.md R69) -/

theorem exec_calSeed (h : s.mayCalibrate = true) : exec .calSeed s = .next (seed s) := by
  show execCalSeed s = _
  rw [execCalSeed, h, whenSelected_true]

theorem exec_calCorrect (meas : Nat) (h : s.mayCalibrate = true) :
    exec (.calCorrect meas) s = (correct meas s).outcome := by
  show execCalCorrect meas s = _
  rw [execCalCorrect, h, whenSelected_true]

/-! ### CAL_SEED (R104) -/

/-- With `TU` writable the seed is `SEED_QP_US`, that is 250. -/
theorem seed_of_not_frozen (h : s.tuf = false) : seed s = { s with tu := 250, iter := 0 } := by
  rw [seed, writeTU_of_not_frozen _ h]
  rfl

/-- Settles O34: in `CAL` the row is the seed, and its write of `TU` goes through while `TUF = 0`. -/
theorem calSeedRow : Obligations.CalSeedRow := by
  intro s hcal hwait htuf
  rw [exec_calSeed (mayCalibrate_iff.mpr ⟨hcal, hwait⟩), seed_of_not_frozen htuf]

/-! ### CAL_CORRECT (R107) -/

variable {meas : Nat} (h : s.mayCalibrate = true)
include h

theorem exec_calCorrect_zero : exec (.calCorrect 0) s = .next (s.takeFault .calDivideByZero) := by
  rw [exec_calCorrect 0 h, correct_zero, Res.outcome_cut]

theorem exec_calCorrect_overflow (h0 : meas ≠ 0) (hq : 2 ^ 32 ≤ correction s.tu meas) :
    exec (.calCorrect meas) s = .next (s.takeFault .calOverflow) := by
  rw [exec_calCorrect meas h, correct_overflow h0 hq, Res.outcome_cut]

theorem exec_calCorrect_ok (h0 : meas ≠ 0) (hq : correction s.tu meas < 2 ^ 32) :
    exec (.calCorrect meas) s = .next (s.writeTU (BitVec.ofNat _ (correction s.tu meas))) := by
  rw [exec_calCorrect meas h, correct_ok h0 hq, Res.outcome_ok]

end

/-- Settles O36: the three ends of `correct`, in R107's order; a fault leaves `TU` and `ITER` alone as `takeFault` does, and
a quotient that fits `TU` is written as it is. -/
theorem calCorrectRow : Obligations.CalCorrectRow := by
  intro s meas hcal hwait htuf
  have hsel : s.mayCalibrate = true := mayCalibrate_iff.mpr ⟨hcal, hwait⟩
  refine ⟨fun hzero => ?zero, fun h0 hq => ?overflow, fun h0 hq => ?written⟩
  case zero =>
    subst hzero
    exact exec_calCorrect_zero hsel
  case overflow => exact exec_calCorrect_overflow hsel h0 hq
  case written =>
    refine ⟨BitVec.ofNat _ (correction s.tu meas), Nat.mod_eq_of_lt hq, ?_⟩
    rw [exec_calCorrect_ok hsel h0 hq, writeTU_of_not_frozen _ htuf]

end Sys2Proof.Machine
end

section
/-! Run control's host actions (43_run_control.md): what P_WRITE does in `IDLE` and in every other phase. -/

namespace Sys2Proof.Machine

/-! ### Each host value is cut to its register's width (30_encoding.md R64) -/

section
variable (tid chan mode str rpt : Nat)

theorem hostParams_tid_toNat : (hostParams tid chan mode str rpt).tid.toNat = tid % 65536 := BitVec.toNat_ofNat ..
theorem hostParams_chan_toNat : (hostParams tid chan mode str rpt).chan.toNat = chan % 16 := BitVec.toNat_ofNat ..
theorem hostParams_mode_toNat : (hostParams tid chan mode str rpt).mode.toNat = mode % 16 := BitVec.toNat_ofNat ..
theorem hostParams_str_toNat : (hostParams tid chan mode str rpt).str.toNat = str % 256 := BitVec.toNat_ofNat ..
theorem hostParams_rpt_toNat : (hostParams tid chan mode str rpt).rpt.toNat = rpt % 65536 := BitVec.toNat_ofNat ..

end

/-! ### P_WRITE (R121) -/

section
variable (tid chan mode str rpt ovr : Nat) {s : State}

theorem exec_pWrite_of_idle (h : s.phase = .idle) :
    exec (.pWrite tid chan mode str rpt ovr) s
      = .next (s.loadParams (hostParams tid chan mode str rpt) (BitVec.ofNat _ ovr)) := by
  show execPWrite tid chan mode str rpt ovr s = _
  rw [execPWrite, if_pos (beq_iff_eq.mpr h)]

theorem exec_pWrite_of_ne_idle (h : s.phase ≠ .idle) : exec (.pWrite tid chan mode str rpt ovr) s = .next s := by
  show execPWrite tid chan mode str rpt ovr s = _
  rw [execPWrite, if_neg (mt beq_iff_eq.mp h)]

end

/-- Settles O41: in `IDLE` the registers loaded are `hostParams` and `OVR`'s cut value; elsewhere the strobe is ignored. -/
theorem pWriteRow : Obligations.PWriteRow := by
  intro tid chan mode str rpt ovr s
  refine ⟨fun hidle => ?idle, fun hother => ?ignored⟩
  case idle =>
    exact ⟨hostParams tid chan mode str rpt, BitVec.ofNat _ ovr, exec_pWrite_of_idle _ _ _ _ _ _ hidle,
      hostParams_tid_toNat .., hostParams_chan_toNat .., hostParams_mode_toNat .., hostParams_str_toNat ..,
      hostParams_rpt_toNat .., BitVec.toNat_ofNat ..⟩
  case ignored => exact exec_pWrite_of_ne_idle _ _ _ _ _ _ hother

end Sys2Proof.Machine
end

section
/-! Reset (70_reset_and_hazards.md): what RESET leaves of the state before it. -/

namespace Sys2Proof.Machine

/-- RESET is performed in every state, also while busy (R151). -/
theorem exec_reset (s : State) : exec .reset s = .next (resetFrom s) := rfl

/-- Of the state before a reset, what stays of the environment is all but the physical level of the line (10_state.md R39). -/
theorem resetFrom_env (s : State) : (resetFrom s).env = s.env.freePin := rfl

/-- Settles O43: every register of `resetFrom s` is the reset state's, a value that does not depend on `s`; the environment
is that of `s` with the line let go (`resetFrom_env`), which leaves the clock and the supplied answers alone. -/
theorem resetRow : Obligations.ResetRow := by
  intro s
  refine ⟨resetFrom s, exec_reset s, ?phase, ?iter, ?rep, ?qidx, ?tu, ?tuf, ?ovr, ?line, ?busy, ?done, ?fatal, ?cancelled,
    ?cause, ?written, ?waiting, ?environment⟩
  case environment =>
    rw [resetFrom_env]
    exact ⟨env_freePin_now _, env_freePin_sink _, env_freePin_cancel _, env_freePin_waits _, env_freePin_drift _⟩
  all_goals rfl

end Sys2Proof.Machine
end

section
/-! Patterns and their rows (30_encoding.md sections 1 to 3): what each space's decoder answers, and the obligations that
decoding and encoding agree. -/

namespace Sys2Proof

/-! ### The decoder of each space, for a number that fits it -/

section
variable {n : Nat}

theorem decode_of_tooWide {sp : Space} (h : 2 ^ sp.width ≤ n) : decode sp n = .error .tooWide := if_pos h

/-- A pattern that decodes has no more bits than its space. -/
theorem lt_of_decode_ok {sp : Space} {i : Instr} (h : decode sp n = .ok i) : n < 2 ^ sp.width := by
  by_contra hge
  rw [decode_of_tooWide (Nat.not_lt.mp hge)] at h
  cases h

theorem decode_symbol (h : n < 256) : decode .symbol n = decodeSymbolPattern n := if_neg (Nat.not_le.mpr h)
theorem decode_postField (h : n < 4) : decode .postField n = if n = 0 then .ok .post else .error .badPostfix :=
  if_neg (Nat.not_le.mpr h)
theorem decode_chanValue (h : n < 16) : decode .chanValue n = decodeChanValue n := if_neg (Nat.not_le.mpr h)
theorem decode_modeValue (h : n < 16) : decode .modeValue n = decodeModeValue n := if_neg (Nat.not_le.mpr h)

end

theorem decode_tidField (v : TidWord) : decode .tidField v.toNat = .ok (.tid v) :=
  (if_neg (Nat.not_le.mpr v.isLt)).trans (by simp)
theorem decode_chanField (v : Nibble) : decode .chanField v.toNat = .ok (.chan v) :=
  (if_neg (Nat.not_le.mpr v.isLt)).trans (by simp)
theorem decode_modeField (v : Nibble) : decode .modeField v.toNat = .ok (.mode v) :=
  (if_neg (Nat.not_le.mpr v.isLt)).trans (by simp)
theorem decode_strField (v : Byte) : decode .strField v.toNat = .ok (.str v) :=
  (if_neg (Nat.not_le.mpr v.isLt)).trans (by simp)
theorem decode_csumField (v : Byte) : decode .csumField v.toNat = .ok (.csum v) :=
  (if_neg (Nat.not_le.mpr v.isLt)).trans (by simp)

theorem decode_logicalWord (w : LogicalWord) : decode .logicalWord w.toNat
    = if Machine.wordPost w ≠ 0 then .error .badPostfix else .ok (.frame w) :=
  (if_neg (Nat.not_le.mpr w.isLt)).trans (by simp [decodeLogicalWord])

/-- A channel value without a name is its token's (R66). -/
theorem decodeChanValue_of_four_le {n : Nat} (h : 4 ≤ n) : decodeChanValue n = .ok (.chan (BitVec.ofNat 4 n)) := by
  obtain ⟨k, rfl⟩ := Nat.exists_eq_add_of_le' h
  rfl

/-- A mode value without a name is its token's (R66). -/
theorem decodeModeValue_of_four_le {n : Nat} (h : 4 ≤ n) : decodeModeValue n = .ok (.mode (BitVec.ofNat 4 n)) := by
  obtain ⟨k, rfl⟩ := Nat.exists_eq_add_of_le' h
  rfl

/-! ### The obligations on patterns -/

/-- Settles O1: twelve patterns of the spec, read bit by bit. -/
theorem decodePublishedPatterns : Obligations.DecodePublishedPatterns := by
  unfold Obligations.DecodePublishedPatterns
  decide

/-- Settles O2: a row with operands is read back by its space's decoder, a fixed row by evaluation; an operation has no
pattern (R69). -/
theorem decodeOfEncode : Obligations.DecodeOfEncode := by
  intro i sp n hwf h
  cases i <;> cases h
  case frame w =>
    have hpost : Machine.wordPost w = 0 := eq_of_beq hwf
    rw [decode_logicalWord, if_neg (not_not_intro hpost)]
  case tid v => exact decode_tidField v
  case chan v => exact decode_chanField v
  case mode v => exact decode_modeField v
  case str v => exact decode_strField v
  case csum v => exact decode_csumField v
  all_goals rfl

/-- What `EncodeOfDecode` says of a decoded pattern: the row is well formed and has this pattern, or it is the token of a
channel or mode value without a name (R66). -/
def ReadsBack (sp : Space) (n : Nat) (i : Instr) : Prop :=
  wellFormed i = true
    ∧ ((sp = .chanValue ∧ 4 ≤ n ∧ encode i = some (.chanField, n))
      ∨ (sp = .modeValue ∧ 4 ≤ n ∧ encode i = some (.modeField, n))
      ∨ (¬((sp = .chanValue ∨ sp = .modeValue) ∧ 4 ≤ n) ∧ encode i = some (sp, n)))

/-- In a space without enumerated values, what decodes to a well-formed row of the same pattern reads back. -/
theorem readsBack_of_encode {sp : Space} {n : Nat} {i : Instr} (hwf : wellFormed i = true)
    (hsp : ¬(sp = .chanValue ∨ sp = .modeValue)) (h : encode i = some (sp, n)) : ReadsBack sp n i :=
  ⟨hwf, .inr (.inr ⟨fun hn => hsp hn.1, h⟩)⟩

theorem readsBack_symbol {n : Nat} {i : Instr} (h : decodeSymbolPattern n = .ok i) : ReadsBack .symbol n i := by
  unfold decodeSymbolPattern at h
  split_ifs at h with hpre hbit1 hbit0
  all_goals
    cases h
    subst n
    exact readsBack_of_encode rfl (by decide) rfl

theorem readsBack_chanValue {n : Nat} {i : Instr} (hn : n < 16) (h : decodeChanValue n = .ok i) :
    ReadsBack .chanValue n i := by
  rcases Nat.lt_or_ge n 4 with hlt | hge
  · interval_cases n <;> cases h <;> exact ⟨rfl, .inr (.inr ⟨by decide, rfl⟩)⟩
  · rw [decodeChanValue_of_four_le hge] at h
    cases h
    exact ⟨rfl, .inl ⟨rfl, hge, by simp [encode, Nat.mod_eq_of_lt hn]⟩⟩

theorem readsBack_modeValue {n : Nat} {i : Instr} (hn : n < 16) (h : decodeModeValue n = .ok i) :
    ReadsBack .modeValue n i := by
  rcases Nat.lt_or_ge n 4 with hlt | hge
  · interval_cases n <;> cases h <;> exact ⟨rfl, .inr (.inr ⟨by decide, rfl⟩)⟩
  · rw [decodeModeValue_of_four_le hge] at h
    cases h
    exact ⟨rfl, .inr (.inl ⟨rfl, hge, by simp [encode, Nat.mod_eq_of_lt hn]⟩)⟩

/-- Settles O3: a number that fits its space is the value of a word of that width, which the row of the space carries. -/
theorem encodeOfDecode : Obligations.EncodeOfDecode := by
  intro sp n i h
  have hlt : n < 2 ^ sp.width := lt_of_decode_ok h
  obtain ⟨v, rfl⟩ : ∃ v : BitVec sp.width, v.toNat = n := ⟨BitVec.ofNatLT n hlt, BitVec.toNat_ofNatLT ..⟩
  cases sp
  case symbol => exact readsBack_symbol ((decode_symbol hlt).symm.trans h)
  case chanValue => exact readsBack_chanValue hlt ((decode_chanValue hlt).symm.trans h)
  case modeValue => exact readsBack_modeValue hlt ((decode_modeValue hlt).symm.trans h)
  case postField =>
    rw [decode_postField hlt] at h
    split_ifs at h with hzero
    cases h
    exact readsBack_of_encode rfl (by decide) (by rw [hzero]; rfl)
  case logicalWord =>
    replace h := (decode_logicalWord v).symm.trans h
    split_ifs at h with hpost
    cases h
    exact readsBack_of_encode (beq_iff_eq.mpr (not_not.mp hpost)) (by decide) rfl
  case tidField => cases (decode_tidField v).symm.trans h; exact readsBack_of_encode rfl (by decide) rfl
  case chanField => cases (decode_chanField v).symm.trans h; exact readsBack_of_encode rfl (by decide) rfl
  case modeField => cases (decode_modeField v).symm.trans h; exact readsBack_of_encode rfl (by decide) rfl
  case strField => cases (decode_strField v).symm.trans h; exact readsBack_of_encode rfl (by decide) rfl
  case csumField => cases (decode_csumField v).symm.trans h; exact readsBack_of_encode rfl (by decide) rfl

/-- Settles O4: each clause is one space's decoder on a number that fits it, or the width test that comes first. -/
theorem nonRowsRejectedByName : Obligations.NonRowsRejectedByName := by
  refine ⟨fun n hn hpre hbit1 hbit0 => ?symbol, fun w hpost => ?badWord, fun w hpost => ?word, fun n hn h0 => ?post,
    fun n h4 h16 => ?value, fun sp n h => decode_of_tooWide h⟩
  case symbol => rw [decode_symbol hn, decodeSymbolPattern, if_neg hpre, if_neg hbit1, if_neg hbit0]
  case badWord => rw [decode_logicalWord, if_pos hpost]
  case word => rw [decode_logicalWord, if_neg (not_not_intro hpost)]
  case post => rw [decode_postField hn, if_neg h0]
  case value =>
    exact ⟨(decode_chanValue h16).trans (decodeChanValue_of_four_le h4),
      (decode_modeValue h16).trans (decodeModeValue_of_four_le h4)⟩

end Sys2Proof
end

section
/-! Whole frames read back and counted (30_encoding.md R55, R58, R60): sampling a frame's levels, reading its symbols off
the front, its level changes and its high slots. -/

namespace Sys2Proof.Machine

/-! ### Sampling the second level of every symbol (R60, the converse) -/

theorem sampleWord_wordLevels (w : LogicalWord) : sampleWord (wordLevels w) = w := by
  apply BitVec.eq_of_getLsbD_eq
  intro i hi
  have hslot : 9 + 4 * (41 - i) = 8 + 4 * (41 - i) + 1 := by omega
  have hlevel : (wordLevels w)[9 + 4 * (41 - i)]? = some (w.getLsbD i) := by
    rw [wordLevels_getElem? w (by omega), hslot, levelAt_symbol w _ (by decide), if_neg (by decide), if_neg (by decide),
      show 41 - (41 - i) = i by omega]
  rw [sampleWord, BitVec.getLsbD_ofFnLE, dif_pos hi, List.getD_eq_getElem?_getD, hlevel, Option.getD_some]

theorem wordLevels_injective {v w : LogicalWord} (h : wordLevels v = wordLevels w) : v = w := by
  rw [← sampleWord_wordLevels v, h, sampleWord_wordLevels]

theorem wordLevels_take (w : LogicalWord) : (wordLevels w).take 8 = preLevels := List.take_left' rfl

/-- Settles O5: sampling gives the word back; and what is accepted passed the test that it is the levels of the word
sampled. -/
theorem frameReadBackFromLevels : Obligations.FrameReadBackFromLevels := by
  refine ⟨fun w hpost => ?readBack, fun ls w h => ?accepted⟩
  case readBack => simp [decodeFrame, wordLevels_length, wordLevels_take, sampleWord_wordLevels, hpost]
  case accepted =>
    unfold decodeFrame at h
    simp only at h
    split_ifs at h with hlength hpre hlevels hpost
    cases h
    exact ⟨(not_not.mp hlevels).symm, not_not.mp hpost⟩

/-! ### Symbols off the front (R55 (c)) -/

/-- The row of a bit's symbol (R54). -/
def bitSymbol (v : Bool) : Instr := if v then .bit1 else .bit0

theorem decodeSymbol_preLevels (rest : List Level) : decodeSymbol (preLevels ++ rest) = .ok (.pre, rest) := rfl

theorem decodeSymbol_sym (v : Bool) (rest : List Level) : decodeSymbol (sym v ++ rest) = .ok (bitSymbol v, rest) := by
  cases v <;> rfl

theorem decodeSymbols_flatMap_sym (rest : List Level) : ∀ bs : List Bool,
    decodeSymbols bs.length (bs.flatMap sym ++ rest) = .ok (bs.map bitSymbol, rest)
  | [] => rfl
  | b :: bs => by
    rw [List.length_cons, decodeSymbols, List.flatMap_cons, List.append_assoc, decodeSymbol_sym]
    simp only [decodeSymbols_flatMap_sym rest bs, List.map_cons]

theorem bitsMsb_length {n : Nat} (x : BitVec n) : (bitsMsb x).length = n := by simp [bitsMsb]

theorem bitsMsb_eq (w : LogicalWord) : bitsMsb w = (List.range 42).map fun b => w.getLsbD (41 - b) :=
  List.map_congr_left fun b hb => by simp [BitVec.getMsbD, List.mem_range.mp hb]

/-- Settles O6: PRE, then one symbol for each of the 42 bits of the expansion. -/
theorem symbolsReadOffTheFront : Obligations.SymbolsReadOffTheFront := by
  refine ⟨fun rest => ⟨decodeSymbol_preLevels rest, decodeSymbol_sym true rest, decodeSymbol_sym false rest⟩,
    fun w rest => ?_⟩
  have hbits : decodeSymbols 42 (expand w ++ rest) = .ok ((bitsMsb w).map bitSymbol, rest) := by
    have h := decodeSymbols_flatMap_sym rest (bitsMsb w)
    rwa [bitsMsb_length] at h
  rw [wordLevels, List.append_assoc, decodeSymbols, decodeSymbol_preLevels]
  simp only [hbits]
  rw [bitsMsb_eq, List.map_map]
  rfl

/-! ### Pulses (R55 (b), (d)) -/

/-- After a low level every symbol makes two changes: up at its front, and down again. -/
theorem levelChanges_flatMap_sym : ∀ bs : List Bool, levelChanges (false :: bs.flatMap sym) = 2 * bs.length
  | [] => rfl
  | b :: bs => by
    have hsym : levelChanges (false :: (sym b ++ bs.flatMap sym)) = 2 + levelChanges (false :: bs.flatMap sym) := by
      cases b <;> simp only [sym, List.cons_append, List.nil_append, levelChanges] <;> simp <;> omega
    rw [List.flatMap_cons, hsym, levelChanges_flatMap_sym bs, List.length_cons]
    omega

/-- A symbol is high in its first slot, and in two more where its bit is 1. -/
theorem countP_flatMap_sym : ∀ bs : List Bool,
    (bs.flatMap sym).countP (fun l => l) = bs.length + 2 * bs.countP fun b => b
  | [] => rfl
  | b :: bs => by
    rw [List.flatMap_cons, List.countP_append, countP_flatMap_sym bs, List.countP_cons, List.length_cons]
    cases b <;> simp [sym] <;> omega

/-- The bits of a word counted in the order of sending and in the order of their numbers. -/
theorem countP_bitsMsb (w : LogicalWord) :
    (bitsMsb w).countP (fun b => b) = (List.range 42).countP fun i => w.getLsbD i := by
  have hreverse : (List.range 42).reverse = (List.range 42).map fun b => 41 - b := by decide
  rw [bitsMsb_eq, ← List.countP_reverse (l := List.range 42), hreverse, List.countP_map, List.countP_map]
  rfl

/-- Settles O22: the preamble has one change and six high slots, and ends low; the symbols follow. -/
theorem pulsesOfAFrame : Obligations.PulsesOfAFrame := by
  intro w
  refine ⟨?changes, ?high, rfl, ?last⟩
  case changes =>
    have hpre : levelChanges (preLevels ++ expand w) = 1 + levelChanges (false :: expand w) := by
      simp [preLevels, levelChanges]
    rw [wordLevels, hpre, expand, levelChanges_flatMap_sym, bitsMsb_length]
  case high =>
    have hpre : preLevels.countP (fun l => l) = 6 := by decide
    rw [wordLevels, List.countP_append, hpre, expand, countP_flatMap_sym, bitsMsb_length, countP_bitsMsb]
    omega
  case last =>
    rw [List.getLast?_eq_getElem?, wordLevels_length, wordLevels_getElem? w (by decide), levelAt_last]

/-! ### Rows that present levels -/

/-- The levels of a field, symbol by symbol. -/
theorem expand_symbol {n : Nat} (x : BitVec n) {i : Nat} (h : i < n) :
    (expand x)[4 * i]? = some true ∧ (expand x)[4 * i + 1]? = some (x.getLsbD (n - 1 - i))
      ∧ (expand x)[4 * i + 2]? = some (x.getLsbD (n - 1 - i)) ∧ (expand x)[4 * i + 3]? = some false :=
  ⟨expand_getElem? x i 0 h (by decide), expand_getElem? x i 1 h (by decide), expand_getElem? x i 2 h (by decide),
    expand_getElem? x i 3 h (by decide)⟩

/-- Settles O12: every token row presents the expansion of its field. -/
theorem tokenRowsExpandMsbFirst : Obligations.TokenRowsExpandMsbFirst := by
  refine ⟨fun v s => ⟨_, exec_tid s v, expand_length v, fun i hi => expand_symbol v hi⟩, fun i v s hi => ?nibble,
    fun i v s hi => ?byte⟩
  case nibble =>
    have hexec : exec i s = .next (s.present (.levels (expand v))) := by rcases hi with rfl | rfl <;> rfl
    exact ⟨_, hexec, expand_length v, fun i hi => expand_symbol v hi⟩
  case byte =>
    have hexec : exec i s = .next (s.present (.levels (expand v))) := by rcases hi with rfl | rfl <;> rfl
    exact ⟨_, hexec, expand_length v, fun i hi => expand_symbol v hi⟩

/-- Settles O13: each of the eight rows presents its code and the code's expansion, as the tokens do. -/
theorem fieldValueRows : Obligations.FieldValueRows := by
  intro s i v hmem
  refine ⟨expand v, ?_, exec_chan s v, exec_mode s v⟩
  simp only [List.mem_cons, Prod.mk.injEq, List.not_mem_nil, or_false] at hmem
  rcases hmem with ⟨rfl, rfl⟩ | ⟨rfl, rfl⟩ | ⟨rfl, rfl⟩ | ⟨rfl, rfl⟩ | ⟨rfl, rfl⟩ | ⟨rfl, rfl⟩ | ⟨rfl, rfl⟩ |
    ⟨rfl, rfl⟩ <;> rfl

/-- ENCODE, the token view, is the levels of the packed word (R86). -/
theorem encode_eq_wordLevels (a : Params) : a.encode = wordLevels a.pack := by
  have hword : expand a.pack = expand (a.tid ++ a.chan ++ a.mode ++ a.str ++ a.checksum ++ (0#2)) := rfl
  have hpost : expand (0#2) = postLevels := by decide
  rw [wordLevels, hword, expand_append, expand_append, expand_append, expand_append, expand_append, hpost]
  simp only [Params.encode, encodeOf, Params.checksum, List.append_assoc]

/-- The levels of a word are those that SLOT presents, slot by slot. -/
theorem wordLevels_slots (w : LogicalWord) (s : State) (q : Byte) (hq : q.toNat ≤ 175) :
    ∃ l, (wordLevels w)[q.toNat]? = some l ∧ exec (.slot w q) s = .next (s.present (.level l)) :=
  ⟨_, wordLevels_getElem? w hq, exec_slot_of_le w s hq⟩

/-- Settles O19: ENCODE presents the levels of the packed word. -/
theorem encodeRow : Obligations.EncodeRow := fun s =>
  ⟨_, _, (exec_encode s).trans (by rw [encode_eq_wordLevels]), exec_pack s, wordLevels_length _,
    wordLevels_slots _ s⟩

theorem exec_frame (w : LogicalWord) (s : State) : exec (.frame w) s = .next (s.present (.levels (wordLevels w))) := rfl

/-- Settles O20: FRAME presents `wordLevels`. -/
theorem frameRow : Obligations.FrameRow := fun w s =>
  ⟨_, exec_frame w s, wordLevels_length w, wordLevels_slots w s⟩

/-! ### The packed word (40_frame_encoder.md R72) -/

/-- Settles O16: the fields are read back from the word, and the word from its levels. -/
theorem packAndEncodeInjective : Obligations.PackAndEncodeInjective := by
  intro a b
  refine ⟨⟨fun h => ?fields, fun h => ?word⟩, ⟨fun h => ?levels, fun h => ?encoded⟩⟩
  case fields =>
    exact ⟨by simpa only [Params.pack, packOf, wordTid_concatWord] using congrArg wordTid h,
      by simpa only [Params.pack, packOf, wordChan_concatWord] using congrArg wordChan h,
      by simpa only [Params.pack, packOf, wordMode_concatWord] using congrArg wordMode h,
      by simpa only [Params.pack, packOf, wordStr_concatWord] using congrArg wordStr h⟩
  case word =>
    obtain ⟨htid, hchan, hmode, hstr⟩ := h
    rw [Params.pack, Params.pack, htid, hchan, hmode, hstr]
  case levels => exact wordLevels_injective (by rw [← encode_eq_wordLevels, ← encode_eq_wordLevels, h])
  case encoded => rw [encode_eq_wordLevels, encode_eq_wordLevels, h]

/-- The checksum of a word's own fields is the sum of its four bytes modulo 256 (95_test_vectors.md V15). -/
theorem checksumOf_fields_toNat (w : LogicalWord) :
    (checksumOf (wordTid w) (wordChan w) (wordMode w) (wordStr w)).toNat
      = ((w.extractLsb' 34 8).toNat + (w.extractLsb' 26 8).toNat + (w.extractLsb' 18 8).toNat
        + (w.extractLsb' 10 8).toNat) % 256 := by
  have hhigh : (wordTid w).toNat / 256 = (w.extractLsb' 34 8).toNat := by
    simp only [wordTid, BitVec.extractLsb'_toNat, Nat.shiftRight_eq_div_pow]
    omega
  have hlow : (wordTid w).toNat % 256 = (w.extractLsb' 26 8).toNat := by
    simp only [wordTid, BitVec.extractLsb'_toNat, Nat.shiftRight_eq_div_pow]
    omega
  have hnibbles : 16 * (wordChan w).toNat + (wordMode w).toNat = (w.extractLsb' 18 8).toNat := by
    simp only [wordChan, wordMode, BitVec.extractLsb'_toNat, Nat.shiftRight_eq_div_pow]
    omega
  rw [checksumOf_toNat, hhigh, hlow, hnibbles, wordStr]

/-- A word is packed from some parameters exactly when its last two bits are 00 and its checksum field is its fields'
checksum. -/
theorem exists_pack_iff (w : LogicalWord) : (∃ a : Params, a.pack = w) ↔
    wordPost w = 0 ∧ wordCsum w = checksumOf (wordTid w) (wordChan w) (wordMode w) (wordStr w) := by
  constructor
  · rintro ⟨a, rfl⟩
    simp only [Params.pack, packOf, wordPost_concatWord, wordCsum_concatWord, wordTid_concatWord, wordChan_concatWord,
      wordMode_concatWord, wordStr_concatWord, and_self]
  · rintro ⟨hpost, hcsum⟩
    exact ⟨⟨wordTid w, wordChan w, wordMode w, wordStr w, 0⟩,
      by rw [Params.pack, packOf, ← hcsum, concatWord_fields w hpost]⟩

/-- Settles O17: `exists_pack_iff`, the checksum as the number `checksumOf_fields_toNat`. -/
theorem checksumOnTheWord : Obligations.ChecksumOnTheWord := by
  intro w
  rw [exists_pack_iff, ← checksumOf_fields_toNat, BitVec.toNat_inj]
  rfl

end Sys2Proof.Machine
end

section
/-! The step (10_state.md R27, log 9): what stands at the inputs is performed, and where the sequencer cannot act nothing
happens. -/

namespace Sys2Proof.Machine

/-! ### What stands at the inputs -/

theorem operation_word {sp : Space} {n : Nat} {i : Instr} (h : decode sp n = .ok i) :
    (HostInput.word sp n).operation = .ok (some i) := by
  rw [HostInput.operation, h]

/-- Settles O7: each input stands for one operation, and `step` performs it with the inputs moved on. -/
theorem stepPerformsInput : Obligations.StepPerformsInput := by
  intro s
  refine ⟨fun sp n i hi hd => ?word, fun tid chan mode str rpt ovr hi => ?pWrite, fun hi => ?start, fun hi => ?reset,
    step_of_quiet⟩
  case word => exact step_of_operation (hi ▸ operation_word hd)
  case pWrite => exact step_of_operation (hi ▸ rfl)
  case start => exact step_of_operation (hi ▸ rfl)
  case reset => exact step_of_operation (hi ▸ rfl)

/-- A step takes the input just put in front off again. -/
theorem moveOn_withInput (s : State) (x : HostInput) : (s.withInput x).moveOn = s := rfl

/-- A table word is what its space's decoder reads (log 13). -/
theorem decode_of_decodeTableWord {nbits w : Nat} {i : Instr} (h : decodeTableWord nbits w = some i) :
    decode (tableSpace nbits w) w = .ok i := by
  unfold decodeTableWord at h
  split at h
  · next j hj =>
    cases h
    exact hj
  · cases h

/-- Settles O8: the word stands at the inputs, its row is performed, and the inputs are those before it was put there. -/
theorem tableWordIsPerformed : Obligations.TableWordIsPerformed := by
  intro s nbits w i h
  exact step_of_operation (s := s.withFetchWord nbits w) (operation_word (decode_of_decodeTableWord h))

/-! ### Where the sequencer cannot act -/

theorem mayAct_iff {s : State} : s.mayAct = true ↔ (s.phase = .cal ∨ s.phase = .tx) ∧ s.waiting = none := by
  simp [State.mayAct, State.inRun]

theorem mayAct_of_not_inRun {s : State} (h : s.inRun = false) : s.mayAct = false := by
  simp [State.mayAct, h]

theorem mayAct_of_hung {s : State} (h : s.waiting ≠ none) : s.mayAct = false :=
  Bool.eq_false_iff.mpr fun hact => h (mayAct_iff.mp hact).2

theorem mayAct_of_selected {s : State} (h : s.selected ≠ none) : s.mayAct = true := by
  obtain ⟨hwait, hcal | htx⟩ := selected_ne_none h
  · exact mayAct_iff.mpr ⟨.inl hcal.1, hwait⟩
  · exact mayAct_iff.mpr ⟨.inr htx.1, hwait⟩

/-- Outside a run, and in a wait that never ends, the sequencer leaves everything as it is (43_run_control.md R123). -/
theorem tick_of_not_mayAct {s : State} (h : s.mayAct = false) : tick s = .next s := by
  have hsel : s.selected = none := by
    by_contra hsel
    rw [mayAct_of_selected hsel] at h
    cases h
  have hend : endStage s = s := by
    unfold endStage
    split
    · rfl
    · next hwait =>
      have hwait : s.waiting = none := by simpa using hwait
      split
      · next hcal => simp [mayAct_iff.mpr ⟨.inl hcal, hwait⟩] at h
      · next htx => simp [mayAct_iff.mpr ⟨.inr htx, hwait⟩] at h
      all_goals rfl
  unfold tick
  rw [hsel]
  simp only [hend]

/-- Settles O10: outside a run the sequencer does nothing. -/
theorem coreWaitsOutsideARun : Obligations.CoreWaitsOutsideARun := by
  intro s hquiet hrun
  rw [step_of_quiet hquiet]
  exact tick_of_not_mayAct (mayAct_of_not_inRun hrun)

/-! ### With nothing at the inputs -/

theorem core_run_succ {s t : State} (h : step s = .next t) (n : Nat) : core.run (n + 1) s = core.run n t := by
  have hstep : core.step s = .next t := h
  refine (Host.Core.run.eq_def core (n + 1) s).trans ?_
  simp only [hstep]

section
variable {s : State} (hi : s.inputs = [])
include hi

theorem moveOn_of_no_inputs : s.moveOn = s := by
  unfold State.moveOn
  rw [hi, List.tail_nil, ← hi]

theorem step_of_no_inputs : step s = tick s := by
  rw [step_of_quiet (by rw [State.input, hi]; rfl), moveOn_of_no_inputs hi]

theorem core_run_of_not_mayAct (h : s.mayAct = false) : ∀ n, core.run n s = .next s
  | 0 => rfl
  | n + 1 => by
    rw [core_run_succ ((step_of_no_inputs hi).trans (tick_of_not_mayAct h))]
    exact core_run_of_not_mayAct h n

end

/-! ### A slot inside a frame -/

/-- Away from slot 0 nothing comes before a slot. -/
theorem beforeSlot_of_inside {s : State} (h : s.qidx ≠ 0) : beforeSlot s = s :=
  if_neg (fun hq => h (by simpa using (Bool.and_eq_true_iff.mp hq).2))

theorem afterSlot_inside {s : State} (h : s.qidx.toNat < 175) : afterSlot s = .ok () (s.setQidx (s.qidx + 1)) :=
  if_pos h

/-- Settles O9: the four ends of the slot; where it completed, the step goes on to the next slot. -/
theorem sequencerPerformsQstep : Obligations.SequencerPerformsQstep := by
  intro s hquiet hsel h0 h175
  have hsel' : s.moveOn.selected = some (.qstep s.active.pack) := hsel
  have hact : s.moveOn.mayAct = true := mayAct_of_selected (by rw [hsel']; simp)
  have hstep : step s = ((quarterStep s.active.pack s.moveOn).andThen fun _ t => afterSlot t).outcome := by
    rw [step_of_quiet hquiet, tick, hsel']
    simp only [beforeSlot_of_inside (s := s.moveOn) h0]
    rfl
  rw [exec_qstep _ hact, hstep]
  rcases quarterStep_cases s.active.pack s.moveOn with ⟨_, _, x, _, h⟩ | ⟨_, _, h⟩ | ⟨_, _, _, h⟩ | ⟨hq, _⟩
  case inl =>
    rw [h]
    refine ⟨fun t ht _ _ => ?_, fun t ht hcut => ?_⟩
    · cases ht
      rw [Res.andThen_ok, afterSlot_inside (by simpa using h175), Res.outcome_ok]
    · cases ht
      obtain ⟨hrun, hwait⟩ := mayAct_iff.mp hact
      rw [slotDone_phase, slotDone_waiting, hwait] at hcut
      rcases hcut with hfatal | hhung
      · rw [hfatal] at hrun
        simp at hrun
      · exact absurd rfl hhung
  case inr.inl =>
    rw [h]
    refine ⟨fun t ht hphase _ => ?_, fun t ht _ => ht⟩
    cases ht
    have hrun := (mayAct_iff.mp hact).1
    rw [moveOn_phase, ← hphase, sinkFailed_phase] at hrun
    simp at hrun
  case inr.inr.inl =>
    rw [h]
    refine ⟨fun t ht _ hwait => ?_, fun t ht _ => ht⟩
    cases ht
    simp at hwait
  case inr.inr.inr => exact absurd hq (by simp only [moveOn_qidx]; omega)

end Sys2Proof.Machine
end

section
/-! Everything one tick of the sequencer can do, as one inductive relation: what every invariant of the machine is proved
from. -/

namespace Sys2Proof.Machine

/-- The state after the last slot of a frame, before the bookkeeping of its end. -/
def frameSent (x : Nat) (s : State) : State := (slotDone s.active.pack x s).setQidx 0

section
variable (x : Nat) (s : State)
@[simp] theorem frameSent_p : (frameSent x s).p = s.p := by simp [frameSent]
@[simp] theorem frameSent_phase : (frameSent x s).phase = s.phase := by simp [frameSent]
@[simp] theorem frameSent_iter : (frameSent x s).iter = s.iter := by simp [frameSent]
@[simp] theorem frameSent_rep : (frameSent x s).rep = s.rep := by simp [frameSent]
@[simp] theorem frameSent_qidx : (frameSent x s).qidx = 0 := by simp [frameSent]
@[simp] theorem frameSent_line : (frameSent x s).line = levelAt s.active.pack s.qidx.toNat := by simp [frameSent]
@[simp] theorem frameSent_waiting : (frameSent x s).waiting = s.waiting := by simp [frameSent]
end

/-- Where one tick leads from `s`. -/
inductive TickTo (s : State) : State → Prop
  /-- Outside a run, and in a hang, nothing happens (43_run_control.md R123). -/
  | stays (h : s.mayAct = false) : TickTo s s
  /-- `CAL` has nothing left to send (R127). -/
  | calEnds (hcal : s.phase = .cal) (hwait : s.waiting = none) (h : 10 ≤ s.iter.toNat) : TickTo s s.enterTx
  /-- `TX` has nothing left to send (R127). -/
  | txEnds (htx : s.phase = .tx) (hwait : s.waiting = none) (h : s.cancelled = true ∨ s.p.rpt.toNat ≤ s.rep.toNat) :
      TickTo s s.enterDone
  /-- The sink failed (41_phase_transmitter.md R95). -/
  | fails (hsel : s.selected ≠ none) (hq : s.qidx.toNat ≤ 175) : TickTo s (sinkFailed (beforeSlot s))
  /-- The slot's wait never ends (43_run_control.md R123). -/
  | hangs (hsel : s.selected ≠ none) (hq : s.qidx.toNat ≤ 175) : TickTo s (slotHung s.active.pack (beforeSlot s))
  /-- A slot that is not the last of its frame. -/
  | slot (x : Nat) (hsel : s.selected ≠ none) (hq : s.qidx.toNat < 175) :
      TickTo s ((slotDone s.active.pack x (beforeSlot s)).setQidx (s.qidx + 1))
  /-- The last slot of a calibration frame whose correction faults (42_calibrator.md R107). -/
  | calFaults (x : Nat) (c : Cause) (hsel : s.selected ≠ none) (hcal : s.phase = .cal) (hq : s.qidx.toNat = 175) :
      TickTo s ((frameClosed (frameSent x s)).takeFault c)
  /-- The last slot of a calibration frame with iterations left over (R108). -/
  | calFrame (x : Nat) (hsel : s.selected ≠ none) (hcal : s.phase = .cal) (hq : s.qidx.toNat = 175)
      (h : (s.iter + 1).toNat < 10) : TickTo s (frameCorrected (frameSent x s))
  /-- The last slot of the last calibration frame. -/
  | calLast (x : Nat) (hsel : s.selected ≠ none) (hcal : s.phase = .cal) (hq : s.qidx.toNat = 175)
      (h : 10 ≤ (s.iter + 1).toNat) : TickTo s (frameCorrected (frameSent x s)).enterTx
  /-- The last slot of a real frame with repetitions left over and the flag not read true
  (41_phase_transmitter.md R92). -/
  | txFrame (x : Nat) (hsel : s.selected ≠ none) (htx : s.phase = .tx) (hq : s.qidx.toNat = 175)
      (hflag : flagAtEnd (frameSent x s) = false) (h : (s.rep + 1).toNat < s.p.rpt.toNat) :
      TickTo s (endRepetition (frameSent x s))
  /-- The last slot of the last real frame (R92, R93). -/
  | txLast (x : Nat) (hsel : s.selected ≠ none) (htx : s.phase = .tx) (hq : s.qidx.toNat = 175) :
      TickTo s (endRepetition (frameSent x s)).enterDone

theorem TickTo.of_endStage {s : State} (hsel : s.selected = none) : TickTo s (endStage s) := by
  unfold endStage
  split
  · next hhung => exact .stays (mayAct_of_hung (by rw [ne_eq, ← Option.not_isSome_iff_eq_none, not_not]; exact hhung))
  · next hwait =>
    have hwait : s.waiting = none := by simpa using hwait
    split
    · next hcal => exact .calEnds hcal hwait (by simpa [State.selected, hcal, hwait] using hsel)
    · next htx =>
      have h := hsel
      simp only [State.selected, htx, hwait] at h
      exact .txEnds htx hwait (by simpa [BitVec.ule, Bool.or_eq_true, imp_iff_not_or] using h)
    all_goals
      next hphase => exact .stays (mayAct_of_not_inRun (by simp [State.inRun, hphase]))

theorem TickTo.of_afterCalFrame {s t : State} {x : Nat} (hsel : s.selected ≠ none) (hcal : s.phase = .cal)
    (hq : s.qidx.toNat = 175) (h : (afterCalFrame (frameSent x s)).outcome = .next t) : TickTo s t := by
  rcases afterCalFrame_cases (frameSent x s) with ⟨_, e⟩ | ⟨_, _, e⟩ | ⟨_, _, e⟩ <;> rw [e] at h <;> cases h
  · exact .calFaults x _ hsel hcal hq
  · exact .calFaults x _ hsel hcal hq
  · rw [frameSent_iter]
    split
    · next hlast => exact .calLast x hsel hcal hq hlast
    · next hmore => exact .calFrame x hsel hcal hq (Nat.not_le.mp hmore)

theorem TickTo.of_afterTxFrame {s t : State} {x : Nat} (hsel : s.selected ≠ none) (htx : s.phase = .tx)
    (hq : s.qidx.toNat = 175) (h : (afterTxFrame (frameSent x s)).outcome = .next t) : TickTo s t := by
  cases h
  split
  · exact .txLast x hsel htx hq
  · next hmore =>
    simp only [endRepetition_p, frameSent_p, endRepetition_rep, frameSent_rep, Bool.or_eq_true, not_or,
      Bool.not_eq_true, BitVec.ule, decide_eq_false_iff_not, Nat.not_le] at hmore
    exact .txFrame x hsel htx hq hmore.1 hmore.2

/-- The last slot of a frame is not its first: nothing comes before it. -/
theorem beforeSlot_of_last {s : State} (hq : s.qidx.toNat = 175) : beforeSlot s = s :=
  beforeSlot_of_inside fun h => by simp [h] at hq

theorem tickTo_of_tick {s t : State} (h : tick s = .next t) : TickTo s t := by
  rcases tick_next h with ⟨hsel, rfl⟩ | ⟨hsel, hq, h⟩
  · exact .of_endStage hsel
  · rcases h with ⟨_, rfl⟩ | ⟨_, rfl⟩ | ⟨x, _, h⟩
    · exact .fails hsel hq
    · exact .hangs hsel hq
    · rcases h with ⟨hlt, rfl⟩ | ⟨hlast, hcal, h⟩ | ⟨hlast, htx, h⟩
      · exact .slot x hsel hlt
      · rw [beforeSlot_of_last hlast] at h
        exact .of_afterCalFrame hsel hcal hlast h
      · rw [beforeSlot_of_last hlast] at h
        exact .of_afterTxFrame hsel htx hlast h

end Sys2Proof.Machine
end

section
/-! What every step keeps, whatever the phase: the history, the true time, a frozen `TU`, the parameters, and the listed
transitions of the phase machine. -/

namespace Sys2Proof.Machine

/-! ### The history, the true time and a frozen `TU` -/

/-- What no operation but a reset takes back. -/
structure Onward (s t : State) : Prop where
  hist : ∃ es, t.hist = es ++ s.hist
  now : s.env.now ≤ t.env.now
  frozen : s.tuf = true → t.tu = s.tu ∧ t.tuf = true

theorem Onward.trans {s t u : State} (h : Onward s t) (k : Onward t u) : Onward s u where
  hist := by
    obtain ⟨es, he⟩ := h.hist
    obtain ⟨fs, hf⟩ := k.hist
    exact ⟨fs ++ es, by rw [hf, he, List.append_assoc]⟩
  now := h.now.trans k.now
  frozen := fun hf => ⟨(k.frozen (h.frozen hf).2).1.trans (h.frozen hf).1, (k.frozen (h.frozen hf).2).2⟩

theorem Kept.onward {s t : State} (h : Kept s t) : Onward s t := ⟨h.hist, h.now, fun hf => ⟨h.tu, h.tuf.trans hf⟩⟩

theorem CalKept.onward {s t : State} (h : CalKept s t) : Onward s t :=
  ⟨h.hist, h.now, fun hf => ⟨h.frozen hf, h.tuf.trans hf⟩⟩

theorem Onward.of_eq {s t : State} (hh : t.hist = s.hist) (hn : t.env.now = s.env.now)
    (hf : s.tuf = true → t.tu = s.tu ∧ t.tuf = true) : Onward s t :=
  ⟨⟨[], hh⟩, Nat.le_of_eq hn.symm, hf⟩

theorem Onward.refl (s : State) : Onward s s := .of_eq rfl rfl fun hf => ⟨rfl, hf⟩

theorem Onward.moveOn (s : State) : Onward s s.moveOn := .of_eq rfl rfl fun hf => ⟨rfl, hf⟩

theorem Onward.enterTx (s : State) : Onward s s.enterTx := .of_eq rfl rfl fun _ => ⟨rfl, rfl⟩

theorem Onward.enterDone (s : State) : Onward s s.enterDone := .of_eq rfl rfl fun hf => ⟨rfl, hf⟩

theorem Onward.enterCal (s : State) : Onward s s.enterCal := .of_eq rfl rfl fun hf => ⟨rfl, hf⟩

theorem Onward.beginCal (s : State) : Onward s (beginCal s) :=
  (Onward.enterCal s).trans (CalLive.seed s.enterCal).onward

theorem Onward.beginOvr (s : State) : Onward s (beginOvr s) :=
  (CalLive.writeTU s s.ovr).onward.trans (.enterTx _)

/-! ### The operations around a slot -/

section
variable (s : State)
@[simp] theorem openMeasure_now : (openMeasure s).env.now = s.env.now + s.env.nextDrift := by
  simp [openMeasure]
@[simp] theorem openMeasure_p : (openMeasure s).p = s.p := by simp [openMeasure]
@[simp] theorem openMeasure_phase : (openMeasure s).phase = s.phase := by simp [openMeasure]
@[simp] theorem openMeasure_cause : (openMeasure s).cause = s.cause := by simp [openMeasure]
@[simp] theorem openMeasure_tu : (openMeasure s).tu = s.tu := by simp [openMeasure]
@[simp] theorem openMeasure_t0 : (openMeasure s).t0 = s.clockNext := by simp [openMeasure]
end

theorem Live.frameSent (x : Nat) (s : State) : Live s (frameSent x s) := (Live.slotDone _ x s).trans (.setQidx _ _)

theorem CalLive.frameClosed {s : State} (hcal : s.phase = .cal) : CalLive s (frameClosed s) :=
  ((Live.endRepetition s).cal hcal).trans (.clockRead _)

theorem CalLive.frameCorrected {s : State} (hcal : s.phase = .cal) : CalLive s (frameCorrected s) :=
  ((CalLive.frameClosed hcal).trans (.writeTU _ _)).trans (.setIter _ _)

theorem CalLive.beforeSlot {s : State} (hcal : s.phase = .cal) : CalLive s (beforeSlot s) := by
  rcases beforeSlot_cases s with ⟨_, _, h⟩ | ⟨_, h⟩ <;> rw [h]
  · exact (CalLive.openMeasure s).trans ((Live.setRep _ 0).cal ((openMeasure_phase s).trans hcal))
  · exact .refl s

theorem Onward.beforeSlot (s : State) : Onward s (beforeSlot s) := by
  rcases beforeSlot_cases s with ⟨hcal, _⟩ | ⟨_, h⟩
  · exact (CalLive.beforeSlot hcal).toCalKept.onward
  · rw [h]
    exact .refl s

/-! ### One tick -/

/-- What no tick changes: the parameters, and what `Onward` says. -/
structure TickKept (s t : State) : Prop extends Onward s t where
  p : t.p = s.p
  written : t.written = s.written
  ovr : t.ovr = s.ovr
  phase : phaseStep s.phase t.phase = true

theorem phaseStep_refl (p : Phase) : phaseStep p p = true := by cases p <;> rfl

/-- The frame of one tick. -/
theorem TickTo.kept {s t : State} (h : TickTo s t) : TickKept s t := by
  cases h with
  | stays => exact ⟨.refl s, rfl, rfl, rfl, phaseStep_refl _⟩
  | calEnds hcal => exact ⟨.enterTx s, rfl, rfl, rfl, by rw [hcal]; rfl⟩
  | txEnds htx => exact ⟨.enterDone s, rfl, rfl, rfl, by rw [htx]; rfl⟩
  | fails hsel hq =>
    have hrun := (mayAct_iff.mp (mayAct_of_selected hsel)).1
    refine ⟨(Onward.beforeSlot s).trans (Cut.sinkFailed _ (by simpa using hq)).onward, by simp, by simp, by simp, ?_⟩
    rcases hrun with hcal | htx
    · rw [hcal]; rfl
    · rw [htx]; rfl
  | hangs hsel hq =>
    exact ⟨(Onward.beforeSlot s).trans (Hung.slotHung _ _ (by simpa using hq)).onward, by simp, by simp, by simp,
      by simp [phaseStep_refl]⟩
  | slot x =>
    exact ⟨(Onward.beforeSlot s).trans ((Live.slotDone _ x _).trans (.setQidx _ _)).onward, by simp, by simp, by simp,
      by simp [phaseStep_refl]⟩
  | calFaults x c hsel hcal =>
    have hclosed := ((Live.frameSent x s).cal hcal).trans (CalLive.frameClosed ((Live.frameSent x s).phase.trans hcal))
    have hcut := hclosed.cut (CalCut.takeFault _ c (by simp [frameClosed]))
    exact ⟨hcut.onward, hcut.p, hcut.written, hcut.ovr, by rw [hcal, hcut.phase]; rfl⟩
  | calFrame x hsel hcal =>
    have hlive := ((Live.frameSent x s).cal hcal).trans (CalLive.frameCorrected ((Live.frameSent x s).phase.trans hcal))
    exact ⟨hlive.onward, hlive.p, hlive.written, hlive.ovr, by rw [hlive.phase]; exact phaseStep_refl _⟩
  | calLast x hsel hcal =>
    have hlive := ((Live.frameSent x s).cal hcal).trans (CalLive.frameCorrected ((Live.frameSent x s).phase.trans hcal))
    exact ⟨hlive.onward.trans (.enterTx _), hlive.p, hlive.written, hlive.ovr, by rw [hcal]; rfl⟩
  | txFrame x =>
    have hlive := (Live.frameSent x s).trans (.endRepetition _)
    exact ⟨hlive.onward, hlive.p, hlive.written, hlive.ovr, by rw [hlive.phase]; exact phaseStep_refl _⟩
  | txLast x hsel htx =>
    have hlive := (Live.frameSent x s).trans (.endRepetition _)
    exact ⟨hlive.onward.trans (.enterDone _), hlive.p, hlive.written, hlive.ovr, by rw [htx]; rfl⟩

/-! ### Every step -/

/-- What any step but a reset keeps. -/
theorem step_onward {s t : State} (h : step s = .next t) (hreset : s.input ≠ .reset) : Onward s t := by
  rcases step_next h with ⟨_, _, v, _, rfl⟩ | ⟨_, _, _, _, _, _, _, ⟨_, rfl⟩ | ⟨_, rfl⟩⟩
    | ⟨_, ⟨_, _, rfl⟩ | ⟨_, _, rfl⟩ | ⟨_, rfl⟩⟩ | ⟨hi, _⟩ | ⟨_, h⟩
  · exact .of_eq rfl rfl fun hf => ⟨rfl, hf⟩
  · exact .of_eq rfl rfl fun hf => ⟨rfl, hf⟩
  · exact .moveOn s
  · exact (Onward.moveOn s).trans (.beginCal _)
  · exact (Onward.moveOn s).trans (.beginOvr _)
  · exact .moveOn s
  · exact absurd hi hreset
  · exact (Onward.moveOn s).trans (tickTo_of_tick h).kept.toOnward

/-- Settles O52: `TU` and `TUF` are part of what `Onward` says. -/
theorem timingUnitFrozen : Obligations.TimingUnitFrozen := fun _ _ hf h hi => (step_onward h hi).frozen hf

/-- Settles O55: the history is part of what `Onward` says. -/
theorem historyOnlyGrows : Obligations.HistoryOnlyGrows := fun _ _ h hi => (step_onward h hi).hist

/-- Settles O56: a reset leaves the true time alone, any other step moves it onward. -/
theorem clockNeverGoesBack : Obligations.ClockNeverGoesBack := by
  intro s t h
  by_cases hreset : s.input = .reset
  · rw [step_of_operation (i := .reset) (by rw [hreset]; rfl)] at h
    cases h
    exact Nat.le_refl _
  · exact (step_onward h hreset).now

theorem mayStart_iff {s : State} : s.mayStart = true ↔ s.phase = .idle ∧ s.written = true := by
  simp [State.mayStart]

/-- Settles O51: the phase moves at a start, a reset or a tick (`TickTo.kept`). -/
theorem onlyListedTransitions : Obligations.OnlyListedTransitions := by
  intro s t h
  rcases step_next h with ⟨_, _, v, _, rfl⟩ | ⟨_, _, _, _, _, _, _, ⟨_, rfl⟩ | ⟨_, rfl⟩⟩
    | ⟨_, ⟨hstart, _, rfl⟩ | ⟨hstart, _, rfl⟩ | ⟨_, rfl⟩⟩ | ⟨hi, rfl⟩ | ⟨_, h⟩
  · exact .inl (phaseStep_refl _)
  · exact .inl (phaseStep_refl _)
  · exact .inl (phaseStep_refl _)
  · exact .inl (by rw [(mayStart_iff.mp hstart).1]; rfl)
  · exact .inl (by rw [(mayStart_iff.mp hstart).1]; rfl)
  · exact .inl (phaseStep_refl _)
  · exact .inr ⟨hi, rfl⟩
  · exact .inl (tickTo_of_tick h).kept.phase

/-- Settles O53: only P_WRITE in `IDLE` and a reset write the parameter registers. -/
theorem parametersStable : Obligations.ParametersStable := by
  intro s t h hreset hwrite
  rcases step_next h with ⟨_, _, v, _, rfl⟩ | ⟨_, _, _, _, _, _, hi, ⟨hidle, _⟩ | ⟨_, rfl⟩⟩
    | ⟨_, ⟨_, _, rfl⟩ | ⟨_, _, rfl⟩ | ⟨_, rfl⟩⟩ | ⟨hi, _⟩ | ⟨_, h⟩
  · exact ⟨rfl, rfl, rfl⟩
  · exact absurd hi (hwrite hidle _ _ _ _ _ _)
  · exact ⟨rfl, rfl, rfl⟩
  · exact ⟨rfl, rfl, rfl⟩
  · exact ⟨rfl, rfl, rfl⟩
  · exact ⟨rfl, rfl, rfl⟩
  · exact absurd hi hreset
  · have hkept := (tickTo_of_tick h).kept
    exact ⟨hkept.p, hkept.ovr, hkept.written⟩

/-- Settles O54: in a final phase no host action but a reset is taken, and the sequencer cannot act. -/
theorem finalPhasesAreFinal : Obligations.FinalPhasesAreFinal := by
  intro s t hfinal hreset h
  have hidle : s.phase ≠ .idle := by rcases hfinal with hp | hp <;> simp [hp]
  have hstart : s.mayStart = false := Bool.eq_false_iff.mpr fun hm => hidle (mayStart_iff.mp hm).1
  have hact : s.moveOn.mayAct = false :=
    mayAct_of_not_inRun (by rcases hfinal with hp | hp <;> simp [State.inRun, hp])
  rcases step_next h with ⟨_, _, v, _, rfl⟩ | ⟨_, _, _, _, _, _, _, ⟨hp, _⟩ | ⟨_, rfl⟩⟩
    | ⟨_, ⟨hm, _⟩ | ⟨hm, _⟩ | ⟨_, rfl⟩⟩ | ⟨hi, _⟩ | ⟨_, h⟩
  · rfl
  · exact absurd hp hidle
  · rfl
  · simp [hstart] at hm
  · simp [hstart] at hm
  · rfl
  · exact absurd hi hreset
  · rw [tick_of_not_mayAct hact] at h
    cases h
    rfl

/-! ### Reads of the flag and of the clock -/

section
variable (s : State)

@[simp] theorem sinkFailed_flagReads : (sinkFailed s).flagReads = s.flagReads := by
  simp [State.flagReads, Event.isCancel]
@[simp] theorem sinkFailed_clockReads : (sinkFailed s).clockReads = s.clockReads := by
  simp [State.clockReads, Event.isClock]
@[simp] theorem slotHung_flagReads (w : LogicalWord) : (slotHung w s).flagReads = s.flagReads := by
  simp [State.flagReads, Event.isCancel]
@[simp] theorem slotHung_clockReads (w : LogicalWord) : (slotHung w s).clockReads = s.clockReads := by
  simp [State.clockReads, Event.isClock]
@[simp] theorem slotDone_flagReads (w : LogicalWord) (x : Nat) : (slotDone w x s).flagReads = s.flagReads := by
  simp [State.flagReads, Event.isCancel]
@[simp] theorem slotDone_clockReads (w : LogicalWord) (x : Nat) : (slotDone w x s).clockReads = s.clockReads := by
  simp [State.clockReads, Event.isClock]
@[simp] theorem setQidx_flagReads (q : BitVec 8) : (s.setQidx q).flagReads = s.flagReads := rfl
@[simp] theorem setQidx_clockReads (q : BitVec 8) : (s.setQidx q).clockReads = s.clockReads := rfl
@[simp] theorem endRepetition_flagReads : (endRepetition s).flagReads = s.flagReads + 1 := by
  simp [State.flagReads, List.countP_cons, Event.isCancel]
@[simp] theorem clockRead_flagReads : s.clockRead.flagReads = s.flagReads := by
  simp [State.flagReads, Event.isCancel]

@[simp] theorem beforeSlot_flagReads : (beforeSlot s).flagReads = s.flagReads := by
  rcases beforeSlot_cases s with ⟨_, _, h⟩ | ⟨_, h⟩ <;> rw [h]
  exact clockRead_flagReads s

@[simp] theorem frameSent_flagReads (x : Nat) : (frameSent x s).flagReads = s.flagReads := by simp [frameSent]

theorem frameClosed_flagReads : (frameClosed s).flagReads = s.flagReads + 1 := by simp [frameClosed]

theorem frameCorrected_hist : (frameCorrected s).hist = (frameClosed s).hist := by simp [frameCorrected]

@[simp] theorem frameCorrected_flagReads : (frameCorrected s).flagReads = s.flagReads + 1 := by
  rw [State.flagReads, frameCorrected_hist]
  exact frameClosed_flagReads s

@[simp] theorem enterTx_flagReads : s.enterTx.flagReads = s.flagReads := rfl
@[simp] theorem enterDone_flagReads : s.enterDone.flagReads = s.flagReads := rfl

@[simp] theorem takeFault_flagReads (c : Cause) : (s.takeFault c).flagReads = s.flagReads := by
  simp [State.flagReads, Event.isCancel]

end

/-- A tick away from the last slot reads no flag. -/
theorem TickTo.flag_inside {s t : State} (h : TickTo s t) (hq : s.qidx.toNat < 175) :
    t.flagReads = s.flagReads ∧ t.env.cancel = s.env.cancel := by
  cases h with
  | stays => exact ⟨rfl, rfl⟩
  | calEnds => exact ⟨rfl, rfl⟩
  | txEnds => exact ⟨rfl, rfl⟩
  | fails => exact ⟨by simp, by simp⟩
  | hangs => exact ⟨by simp, by simp⟩
  | slot => exact ⟨by simp, by simp⟩
  | calFaults _ _ _ _ hlast => omega
  | calFrame _ _ _ hlast => omega
  | calLast _ _ _ hlast => omega
  | txFrame _ _ _ hlast => omega
  | txLast _ _ _ hlast => omega

/-- A tick inside a frame reads no clock. -/
theorem TickTo.clock_inside {s t : State} (h : TickTo s t) (h0 : s.qidx ≠ 0) (hq : s.qidx.toNat < 175) :
    t.clockReads = s.clockReads := by
  have hbefore : beforeSlot s = s := beforeSlot_of_inside h0
  cases h with
  | stays => rfl
  | calEnds => rfl
  | txEnds => rfl
  | fails => simp [hbefore]
  | hangs => simp [hbefore]
  | slot => simp [hbefore]
  | calFaults _ _ _ _ hlast => omega
  | calFrame _ _ _ hlast => omega
  | calLast _ _ _ hlast => omega
  | txFrame _ _ _ hlast => omega
  | txLast _ _ _ hlast => omega

/-- A tick of the last slot reads the flag once, unless the slot was cut. -/
theorem TickTo.flag_last {s t : State} (h : TickTo s t) (hq : s.qidx.toNat = 175) (hsel : s.selected ≠ none) :
    t.flagReads = s.flagReads + 1
      ∨ (t.flagReads = s.flagReads ∧ ((t.phase = .fatal ∧ t.cause = 1) ∨ t.waiting ≠ none)) := by
  have hact := mayAct_of_selected hsel
  obtain ⟨hwait, hpos⟩ := selected_ne_none hsel
  cases h with
  | stays h => rw [hact] at h; cases h
  | calEnds hcal _ h =>
    rcases hpos with ⟨_, hiter⟩ | ⟨htx, _⟩
    · omega
    · rw [hcal] at htx; cases htx
  | txEnds htx _ h =>
    rcases hpos with ⟨hcal, _⟩ | ⟨_, hcan, hrep⟩
    · rw [htx] at hcal; cases hcal
    · simp [hcan] at h; omega
  | fails => exact .inr ⟨by simp, .inl ⟨by simp, by simp⟩⟩
  | hangs => exact .inr ⟨by simp, .inr (by simp)⟩
  | slot _ _ hlt => omega
  | calFaults x => exact .inl (by simp [frameClosed_flagReads])
  | calFrame x => exact .inl (by simp)
  | calLast x => exact .inl (by simp)
  | txFrame x => exact .inl (by simp)
  | txLast x => exact .inl (by simp)

/-- Settles O57: the three lemmas on one tick. -/
theorem flagReadOnlyBetweenFrames : Obligations.FlagReadOnlyBetweenFrames := by
  intro s t hquiet h
  rw [step_of_quiet hquiet] at h
  have htick : TickTo s.moveOn t := tickTo_of_tick h
  exact ⟨htick.flag_inside, htick.clock_inside, htick.flag_last⟩

end Sys2Proof.Machine
end

section
/-! The invariant of phase, flags, cause and counters (10_state.md R28 to R35): each operation of a tick keeps it, and so
does every step. -/

namespace Sys2Proof.Machine

/-! ### The operations that keep the invariant -/

/-- Settles O49: every register has its reset value. -/
theorem invAtReset : Obligations.InvAtReset := by
  constructor <;> simp [State.reset, State.inRun]

theorem Inv.resetFrom (s : State) : Inv (resetFrom s) := by
  constructor <;> simp [Machine.resetFrom, State.reset, State.inRun]

section
variable {s t : State}

/-- The inputs, the environment, the history and the result presented are no part of the invariant. -/
theorem Inv.of_registers (h : Inv s) (e : Env) (hist : List Event) (inputs : List HostInput) (out : Value) :
    Inv { s with env := e, hist := hist, inputs := inputs, out := out } := by
  cases h
  constructor <;> assumption

theorem Inv.moveOn (h : Inv s) : Inv s.moveOn := h.of_registers ..

theorem Inv.present (h : Inv s) (v : Value) : Inv (s.present v) := h.of_registers ..

theorem Inv.loadParams (h : Inv s) (hidle : s.phase = .idle) (p : Params) (ovr : Micros) : Inv (s.loadParams p ovr) := by
  cases h
  constructor <;> simp_all [State.inRun]

/-- In `IDLE` no wait hangs. -/
theorem Inv.waiting_of_not_inRun (h : Inv s) (hrun : s.inRun = false) : s.waiting = none := by
  by_contra hwait
  rw [h.hang_in_run hwait] at hrun
  cases hrun

theorem zero_le_rep (n : RepeatCount) : 0#Config.repeatW ≤ n := BitVec.le_def.mpr (Nat.zero_le _)

theorem Inv.beginCal (h : Inv s) (hidle : s.phase = .idle) (hwritten : s.written = true) : Inv (beginCal s) := by
  obtain ⟨_, hrep, hqidx, _, _⟩ := h.idle_fresh hidle
  cases h
  constructor <;> simp_all [Machine.beginCal, seed, State.inRun]

theorem Inv.beginOvr (h : Inv s) (hidle : s.phase = .idle) (hwritten : s.written = true) : Inv (beginOvr s) := by
  obtain ⟨_, hrep, hqidx, _, _⟩ := h.idle_fresh hidle
  cases h
  constructor <;> simp_all [Machine.beginOvr, State.inRun, zero_le_rep]

/-- `CAL` ends between frames (43_run_control.md R127). -/
theorem Inv.enterTx (h : Inv s) (hcal : s.phase = .cal) (hq : s.qidx = 0) : Inv s.enterTx := by
  cases h
  constructor <;> simp_all [State.inRun, zero_le_rep]

/-- `TX` ends between frames (R127). -/
theorem Inv.enterDone (h : Inv s) (htx : s.phase = .tx) (hwait : s.waiting = none) (hq : s.qidx = 0) :
    Inv s.enterDone := by
  cases h
  constructor <;> simp_all [State.inRun]

theorem Inv.doneFlag_of_run (h : Inv s) (hrun : s.phase = .cal ∨ s.phase = .tx) : s.doneFlag = false := by
  rw [h.done_eq]
  rcases hrun with hp | hp <;> rw [hp] <;> rfl

theorem Inv.written_of_run (h : Inv s) (hrun : s.phase = .cal ∨ s.phase = .tx) : s.written = true :=
  h.started_written fun hidle => by rcases hrun with hp | hp <;> simp [hidle] at hp

theorem causeCode_ne_zero (c : Cause) : causeCode c ≠ 0 := by cases c <;> decide

/-- A fault is taken inside a run (60_exceptions.md R133). -/
theorem Inv.takeFault (h : Inv s) (hact : s.mayAct = true) (c : Cause) : Inv (s.takeFault c) where
  iter_le := h.iter_le
  qidx_le := h.qidx_le
  busy_eq := rfl
  done_eq := h.doneFlag_of_run (mayAct_iff.mp hact).1
  fatal_eq := rfl
  cause_iff := ⟨fun h0 => absurd h0 (causeCode_ne_zero c), fun hp => absurd rfl hp⟩
  idle_fresh hp := nomatch hp
  unfrozen hp := nomatch hp
  frozen hp := nomatch hp
  started_written _ := h.written_of_run (mayAct_iff.mp hact).1
  rep_le_cal hp := nomatch hp
  rep_le_tx hp := nomatch hp
  cal_slot hp := nomatch hp
  tx_slot hp := nomatch hp
  done_slot hp := nomatch hp
  cancelled_late hp := nomatch hp
  hang_in_run hp := absurd (mayAct_iff.mp hact).2 hp

theorem Inv.sinkFailed (h : Inv s) (hact : s.mayAct = true) : Inv (sinkFailed s) :=
  (h.of_registers s.env.tookSink.freePin s.hist s.inputs s.out).takeFault hact .sinkFault

theorem Inv.beforeSlot (h : Inv s) : Inv (beforeSlot s) := by
  rcases beforeSlot_cases s with ⟨hcal, hq, e⟩ | ⟨_, e⟩ <;> rw [e]
  · cases h
    constructor <;> simp_all [openMeasure, State.inRun]
  · exact h

/-- The invariant in phase `CAL`, of what the Calibrator's operations leave as it was. -/
theorem Inv.calGoing (h : Inv s) (hcal : s.phase = .cal) (k : CalGoing s t) (hiter : t.iter.toNat ≤ 10)
    (hqidx : t.qidx.toNat ≤ 175) (hrep : t.rep ≤ 1) (hslot : t.qidx ≠ 0 → t.rep = 0 ∧ t.iter.toNat < 10) : Inv t where
  iter_le := hiter
  qidx_le := hqidx
  busy_eq := by rw [k.busy, h.busy_eq, State.inRun, State.inRun, k.phase]
  done_eq := by rw [k.doneFlag, h.done_eq, k.phase]
  fatal_eq := by rw [k.fatalFlag, h.fatal_eq, k.phase]
  cause_iff := by rw [k.cause, k.phase]; exact h.cause_iff
  idle_fresh hp := by simp [k.phase, hcal] at hp
  unfrozen _ := k.tuf.trans (h.unfrozen (.inr hcal))
  frozen hp := by simp [k.phase, hcal] at hp
  started_written _ := k.written.trans (h.started_written (by simp [hcal]))
  rep_le_cal _ := hrep
  rep_le_tx hp := by simp [k.phase, hcal] at hp
  cal_slot _ := hslot
  tx_slot hp := by simp [k.phase, hcal] at hp
  done_slot hp := by simp [k.phase, hcal] at hp
  cancelled_late _ := k.cancelled.trans (h.cancelled_late (.inr hcal))
  hang_in_run _ := by simp [State.inRun, k.phase, hcal]

/-- The invariant in phase `TX`, of what the transmitter's operations leave as it was. -/
theorem Inv.txGoing (h : Inv s) (htx : s.phase = .tx) (k : Going s t) (hqidx : t.qidx.toNat ≤ 175)
    (hrep : t.rep ≤ s.p.rpt) (hslot : t.qidx ≠ 0 → t.rep < s.p.rpt ∧ t.cancelled = false) : Inv t where
  iter_le := by rw [k.iter]; exact h.iter_le
  qidx_le := hqidx
  busy_eq := by rw [k.busy, h.busy_eq, State.inRun, State.inRun, k.phase]
  done_eq := by rw [k.doneFlag, h.done_eq, k.phase]
  fatal_eq := by rw [k.fatalFlag, h.fatal_eq, k.phase]
  cause_iff := by rw [k.cause, k.phase]; exact h.cause_iff
  idle_fresh hp := by simp [k.phase, htx] at hp
  unfrozen hp := by simp [k.phase, htx] at hp
  frozen _ := k.tuf.trans (h.frozen (.inl htx))
  started_written _ := k.written.trans (h.started_written (by simp [htx]))
  rep_le_cal hp := by simp [k.phase, htx] at hp
  rep_le_tx _ := by rw [k.p]; exact hrep
  cal_slot hp := by simp [k.phase, htx] at hp
  tx_slot _ hq := by rw [k.p]; exact hslot hq
  done_slot hp := by simp [k.phase, htx] at hp
  cancelled_late hp := by simp [k.phase, htx] at hp
  hang_in_run _ := by simp [State.inRun, k.phase, htx]

/-! ### A position that the sequencer selects -/

theorem beforeSlot_of_tx (htx : s.phase = .tx) : Machine.beforeSlot s = s := by
  rcases beforeSlot_cases s with ⟨hcal, _⟩ | ⟨_, e⟩
  · rw [htx] at hcal
    cases hcal
  · exact e

theorem iter_lt_of_selected (hsel : s.selected ≠ none) (hcal : s.phase = .cal) : s.iter.toNat < 10 := by
  obtain ⟨_, ⟨_, hiter⟩ | ⟨htx, _⟩⟩ := selected_ne_none hsel
  · exact hiter
  · rw [hcal] at htx
    cases htx

theorem rep_lt_of_selected (hsel : s.selected ≠ none) (htx : s.phase = .tx) : s.rep < s.p.rpt ∧ s.cancelled = false := by
  obtain ⟨_, ⟨hcal, _⟩ | ⟨_, hcan, hrep⟩⟩ := selected_ne_none hsel
  · rw [htx] at hcal
    cases hcal
  · exact ⟨BitVec.lt_def.mpr hrep, hcan⟩

/-- In a calibration frame that is in progress or begins now, no repetition is finished (42_calibrator.md R105). -/
theorem Inv.rep_beforeSlot (h : Inv s) (hcal : s.phase = .cal) : (Machine.beforeSlot s).rep = 0 := by
  rcases beforeSlot_cases s with ⟨_, _, e⟩ | ⟨hne, e⟩ <;> rw [e]
  · rfl
  · exact (h.cal_slot hcal fun hq => hne ⟨hcal, hq⟩).1

theorem rep_succ_toNat {r n : RepeatCount} (h : r < n) : (r + 1).toNat = r.toNat + 1 := by
  have hlt := BitVec.lt_def.mp h
  have hn := n.isLt
  rw [BitVec.toNat_add]
  simp at hn ⊢
  omega

theorem rep_succ_le {r n : RepeatCount} (h : r < n) : r + 1 ≤ n := by
  rw [BitVec.le_def, rep_succ_toNat h]
  exact BitVec.lt_def.mp h

theorem iter_succ_toNat {n : BitVec 4} (h : n.toNat < 10) : (n + 1).toNat = n.toNat + 1 := by
  rw [BitVec.toNat_add]
  simp
  omega

theorem ne_zero_of_last {q : BitVec 8} (hq : q.toNat = 175) : q ≠ 0 := fun h => by simp [h] at hq

/-! ### The ends of a tick -/

/-- A slot that leaves the core in its frame, at the same position or the next one. -/
theorem Inv.insideFrame (h : Inv s) (hsel : s.selected ≠ none) (k : Going (Machine.beforeSlot s) t)
    (hqidx : t.qidx.toNat ≤ 175) (hrep : t.rep = (Machine.beforeSlot s).rep)
    (hcan : t.cancelled = s.cancelled) : Inv t := by
  rcases (mayAct_iff.mp (mayAct_of_selected hsel)).1 with hcal | htx
  · have hgoing : CalGoing s t := (CalLive.beforeSlot hcal).toCalGoing.trans (k.cal (by simpa using hcal))
    have hiter : t.iter = s.iter := k.iter.trans (beforeSlot_iter s)
    have hlt := iter_lt_of_selected hsel hcal
    rw [h.rep_beforeSlot hcal] at hrep
    exact h.calGoing hcal hgoing (by rw [hiter]; omega) hqidx (by simp [hrep]) fun _ => ⟨hrep, by rw [hiter]; exact hlt⟩
  · rw [beforeSlot_of_tx htx] at k hrep
    have hlt := rep_lt_of_selected hsel htx
    exact h.txGoing htx k hqidx (by rw [hrep]; exact BitVec.le_of_lt hlt.1)
      fun _ => by rw [hrep, hcan]; exact hlt

/-- The end of a calibration frame, before and after its correction. -/
theorem Inv.calFrameEnd (h : Inv s) (hcal : s.phase = .cal) (hq : s.qidx.toNat = 175) (k : CalGoing s t)
    (hiter : t.iter.toNat ≤ 10) (hqidx : t.qidx = 0) (hrep : t.rep = s.rep + 1) : Inv t := by
  rw [(h.cal_slot hcal (ne_zero_of_last hq)).1] at hrep
  exact h.calGoing hcal k hiter (by simp [hqidx]) (by simp [hrep]) fun hne => absurd hqidx hne

/-- The end of a real frame. -/
theorem Inv.endRepetition_tx (h : Inv s) (hsel : s.selected ≠ none) (htx : s.phase = .tx) (x : Nat) :
    Inv (endRepetition (frameSent x s)) :=
  h.txGoing htx ((Live.frameSent x s).trans (.endRepetition _)).toGoing (by simp)
    (by simpa using rep_succ_le (rep_lt_of_selected hsel htx).1) fun hne => absurd (by simp) hne

theorem Inv.frameClosed (h : Inv s) (hcal : s.phase = .cal) (hq : s.qidx.toNat = 175) (x : Nat) :
    Inv (frameClosed (frameSent x s)) :=
  h.calFrameEnd hcal hq
    (((Live.frameSent x s).cal hcal).trans (CalLive.frameClosed (by simpa using hcal))).toCalGoing
    (by simpa [Machine.frameClosed] using h.iter_le) (by simp [Machine.frameClosed])
    (by simp [Machine.frameClosed])

theorem Inv.frameCorrected (h : Inv s) (hsel : s.selected ≠ none) (hcal : s.phase = .cal) (hq : s.qidx.toNat = 175)
    (x : Nat) : Inv (frameCorrected (frameSent x s)) := by
  have hlt := iter_lt_of_selected hsel hcal
  refine h.calFrameEnd hcal hq
    (((Live.frameSent x s).cal hcal).trans (CalLive.frameCorrected (by simpa using hcal))).toCalGoing ?_
    (by simp [Machine.frameCorrected, Machine.frameClosed])
    (by simp [Machine.frameCorrected, Machine.frameClosed])
  have hiter : (Machine.frameCorrected (frameSent x s)).iter = s.iter + 1 := by
    simp [Machine.frameCorrected]
  rw [hiter, iter_succ_toNat hlt]
  exact hlt

/-- A stage with nothing left to send stands between frames. -/
theorem Inv.qidx_of_calEnds (h : Inv s) (hcal : s.phase = .cal) (hend : 10 ≤ s.iter.toNat) : s.qidx = 0 := by
  by_contra hq
  have hlt := (h.cal_slot hcal hq).2
  omega

theorem Inv.qidx_of_txEnds (h : Inv s) (htx : s.phase = .tx)
    (hend : s.cancelled = true ∨ s.p.rpt.toNat ≤ s.rep.toNat) : s.qidx = 0 := by
  by_contra hq
  obtain ⟨hrep, hcan⟩ := h.tx_slot htx hq
  have hlt := BitVec.lt_def.mp hrep
  rcases hend with hc | hr
  · rw [hcan] at hc
    cases hc
  · omega

end

/-! ### One tick, and every step -/

theorem TickTo.keeps_inv {s t : State} (hs : Inv s) (h : TickTo s t) : Inv t := by
  cases h with
  | stays => exact hs
  | calEnds hcal hwait hend => exact hs.enterTx hcal (hs.qidx_of_calEnds hcal hend)
  | txEnds htx hwait hend => exact hs.enterDone htx hwait (hs.qidx_of_txEnds htx hend)
  | fails hsel hq => exact hs.beforeSlot.sinkFailed (by simpa [mayAct_iff] using mayAct_of_selected hsel)
  | hangs hsel hq =>
    exact hs.insideFrame hsel (Hung.slotHung _ _ (by simpa using hq)).toGoing (by simpa using hq) (by simp) (by simp)
  | slot x hsel hq =>
    exact hs.insideFrame hsel ((Live.slotDone _ x _).trans (.setQidx _ _)).toGoing
      (by rw [setQidx_qidx, qidx_succ hq]; exact hq) (by simp) (by simp)
  | calFaults x c hsel hcal hq =>
    refine (hs.frameClosed hcal hq x).takeFault ?_ c
    exact mayAct_iff.mpr ⟨.inl (by simpa [frameClosed] using hcal),
      by simpa [frameClosed] using (selected_ne_none hsel).1⟩
  | calFrame x hsel hcal hq => exact hs.frameCorrected hsel hcal hq x
  | calLast x hsel hcal hq =>
    exact (hs.frameCorrected hsel hcal hq x).enterTx (by simpa [frameCorrected, frameClosed] using hcal)
      (by simp [frameCorrected, frameClosed])
  | txFrame x hsel htx => exact hs.endRepetition_tx hsel htx x
  | txLast x hsel htx =>
    exact (hs.endRepetition_tx hsel htx x).enterDone (by simpa using htx) (by simpa using (selected_ne_none hsel).1)
      (by simp)

/-- Settles O50: a pattern's row and an ignored input change no register, a host action keeps the invariant, and so does
every end of a tick. -/
theorem stepKeepsInv : Obligations.StepKeepsInv := by
  intro s t hs h
  rcases step_next h with ⟨_, _, v, _, rfl⟩ | ⟨_, _, _, _, _, _, _, ⟨hidle, rfl⟩ | ⟨_, rfl⟩⟩
    | ⟨_, ⟨hstart, _, rfl⟩ | ⟨hstart, _, rfl⟩ | ⟨_, rfl⟩⟩ | ⟨_, rfl⟩ | ⟨_, h⟩
  · exact hs.moveOn.present v
  · exact hs.moveOn.loadParams hidle _ _
  · exact hs.moveOn
  · exact hs.moveOn.beginCal (mayStart_iff.mp hstart).1 (mayStart_iff.mp hstart).2
  · exact hs.moveOn.beginOvr (mayStart_iff.mp hstart).1 (mayStart_iff.mp hstart).2
  · exact hs.moveOn
  · exact .resetFrom _
  · exact (tickTo_of_tick h).keeps_inv hs.moveOn

end Sys2Proof.Machine
end

section
/-! The commits of a run are whole frames (41_phase_transmitter.md R90, R92, R93), and the line shows the slot before the
position (10_state.md R34, 30_encoding.md R55): both are kept by every step. -/

namespace Sys2Proof.Machine

/-! ### Counting commits -/

section
variable (s : State)

@[simp] theorem slotHung_commits (w : LogicalWord) : (slotHung w s).commits = s.commits + 1 := by
  simp [State.commits, List.countP_cons, Event.isCommit]
@[simp] theorem slotDone_commits (w : LogicalWord) (x : Nat) : (slotDone w x s).commits = s.commits + 1 := by
  simp [State.commits, List.countP_cons, Event.isCommit]
@[simp] theorem endRepetition_commits : (endRepetition s).commits = s.commits := by
  simp [State.commits, Event.isCommit]
@[simp] theorem clockRead_commits : s.clockRead.commits = s.commits := by
  simp [State.commits, Event.isCommit]
@[simp] theorem setQidx_commits (q : BitVec 8) : (s.setQidx q).commits = s.commits := rfl
@[simp] theorem enterTx_commits : s.enterTx.commits = s.commits := rfl

@[simp] theorem beforeSlot_commits : (beforeSlot s).commits = s.commits := by
  rcases beforeSlot_cases s with ⟨_, _, h⟩ | ⟨_, h⟩ <;> rw [h]
  exact clockRead_commits s

@[simp] theorem frameSent_commits (x : Nat) : (frameSent x s).commits = s.commits + 1 := by simp [frameSent]

@[simp] theorem frameCorrected_commits : (frameCorrected s).commits = s.commits := by
  rw [State.commits, frameCorrected_hist, frameClosed]
  exact (clockRead_commits _).trans (endRepetition_commits s)

end

section
variable (s : State)
@[simp] theorem frameCorrected_phase : (frameCorrected s).phase = s.phase := by simp [frameCorrected, frameClosed]
@[simp] theorem frameCorrected_iter : (frameCorrected s).iter = s.iter + 1 := by simp [frameCorrected]
@[simp] theorem frameCorrected_qidx : (frameCorrected s).qidx = s.qidx := by simp [frameCorrected, frameClosed]
@[simp] theorem frameCorrected_line : (frameCorrected s).line = s.line := by simp [frameCorrected, frameClosed]
@[simp] theorem frameCorrected_waiting : (frameCorrected s).waiting = s.waiting := by simp [frameCorrected, frameClosed]
end

/-! ### Whole frames -/

section
variable {s : State}

theorem hungSlots_eq_zero (h : s.waiting = none) : s.hungSlots = 0 := by simp [State.hungSlots, h]

theorem hungSlots_eq_one {u : Micros} (h : s.waiting = some u) : s.hungSlots = 1 := by simp [State.hungSlots, h]

theorem wholeFrames_of_idle (h : s.phase = .idle) : WholeFrames s ↔ s.commits = 0 := by simp [WholeFrames, h]

theorem wholeFrames_of_cal (h : s.phase = .cal) :
    WholeFrames s ↔ s.commits = 176 * s.iter.toNat + s.qidx.toNat + s.hungSlots := by simp [WholeFrames, h]

theorem wholeFrames_of_tx (h : s.phase = .tx) :
    WholeFrames s ↔ s.commits = 176 * (s.iter.toNat + s.rep.toNat) + s.qidx.toNat + s.hungSlots := by
  simp [WholeFrames, h]

theorem wholeFrames_of_done (h : s.phase = .done) :
    WholeFrames s ↔ s.qidx = 0 ∧ s.commits = 176 * (s.iter.toNat + s.rep.toNat) := by simp [WholeFrames, h]

theorem wholeFrames_of_fatal (h : s.phase = .fatal) : WholeFrames s := by simp [WholeFrames, h]

/-- A position inside a run: what is sent so far is the finished frames and the slots before the position. -/
theorem WholeFrames.insideFrame {t : State} (hw : WholeFrames s) (hsel : s.selected ≠ none)
    (hphase : t.phase = s.phase) (hiter : t.iter = s.iter) (hrep : s.phase = .tx → t.rep = s.rep)
    (hcommits : t.commits = s.commits + 1) (hpos : t.qidx.toNat + t.hungSlots = s.qidx.toNat + 1) : WholeFrames t := by
  have hhung := hungSlots_eq_zero (selected_ne_none hsel).1
  rcases (mayAct_iff.mp (mayAct_of_selected hsel)).1 with hcal | htx
  · rw [wholeFrames_of_cal hcal] at hw
    rw [wholeFrames_of_cal (hphase.trans hcal), hiter]
    omega
  · rw [wholeFrames_of_tx htx] at hw
    rw [wholeFrames_of_tx (hphase.trans htx), hiter, hrep htx]
    omega

/-- After the last slot of a calibration frame one more iteration's frame is complete. -/
theorem WholeFrames.frameCorrected (hw : WholeFrames s) (hsel : s.selected ≠ none) (hcal : s.phase = .cal)
    (hq : s.qidx.toNat = 175) (x : Nat) : WholeFrames (frameCorrected (frameSent x s)) := by
  have hwait := (selected_ne_none hsel).1
  have hiter := iter_succ_toNat (iter_lt_of_selected hsel hcal)
  rw [wholeFrames_of_cal hcal, hungSlots_eq_zero hwait] at hw
  rw [wholeFrames_of_cal (by simpa using hcal), hungSlots_eq_zero (by simpa using hwait)]
  simp only [frameCorrected_commits, frameSent_commits, frameCorrected_iter, frameSent_iter, frameCorrected_qidx,
    frameSent_qidx, hiter]
  simp
  omega

/-- After the last slot of a real frame one more repetition is complete. -/
theorem WholeFrames.endRepetition (hw : WholeFrames s) (hsel : s.selected ≠ none) (htx : s.phase = .tx)
    (hq : s.qidx.toNat = 175) (x : Nat) : WholeFrames (endRepetition (frameSent x s)) := by
  have hwait := (selected_ne_none hsel).1
  have hrep := rep_succ_toNat (rep_lt_of_selected hsel htx).1
  rw [wholeFrames_of_tx htx, hungSlots_eq_zero hwait] at hw
  rw [wholeFrames_of_tx (by simpa using htx), hungSlots_eq_zero (by simpa using hwait)]
  simp only [endRepetition_commits, frameSent_commits, endRepetition_iter, frameSent_iter, endRepetition_rep,
    frameSent_rep, endRepetition_qidx, frameSent_qidx, hrep]
  simp
  omega

/-- `TX` begins with no repetition finished, and the position where `CAL` left it. -/
theorem WholeFrames.enterTx (hw : WholeFrames s) (hcal : s.phase = .cal) : WholeFrames s.enterTx := by
  rw [wholeFrames_of_cal hcal] at hw
  have hhung : s.enterTx.hungSlots = s.hungSlots := rfl
  rw [wholeFrames_of_tx rfl, hhung]
  simpa using hw

theorem WholeFrames.enterDone (hw : WholeFrames s) (htx : s.phase = .tx) (hwait : s.waiting = none) (hq : s.qidx = 0) :
    WholeFrames s.enterDone := by
  rw [wholeFrames_of_tx htx, hq, hungSlots_eq_zero hwait] at hw
  rw [wholeFrames_of_done rfl]
  exact ⟨hq, hw⟩

/-- In `IDLE` every counter is 0 and no wait hangs: a run begins with no frame sent. -/
theorem WholeFrames.beginCal (hw : WholeFrames s) (hs : Inv s) (hidle : s.phase = .idle) : WholeFrames (beginCal s) := by
  obtain ⟨_, _, hqidx, _, _⟩ := hs.idle_fresh hidle
  have hwait := hs.waiting_of_not_inRun (by simp [State.inRun, hidle])
  have hhung : (Machine.beginCal s).hungSlots = 0 := hungSlots_eq_zero hwait
  rw [wholeFrames_of_idle hidle] at hw
  have hcommits : (Machine.beginCal s).commits = 0 := hw
  rw [wholeFrames_of_cal rfl, hhung, hcommits]
  simp [Machine.beginCal, seed, hqidx]

theorem WholeFrames.beginOvr (hw : WholeFrames s) (hs : Inv s) (hidle : s.phase = .idle) : WholeFrames (beginOvr s) := by
  obtain ⟨hiter, _, hqidx, _, _⟩ := hs.idle_fresh hidle
  have hwait := hs.waiting_of_not_inRun (by simp [State.inRun, hidle])
  have hhung : (Machine.beginOvr s).hungSlots = 0 := hungSlots_eq_zero hwait
  rw [wholeFrames_of_idle hidle] at hw
  have hcommits : (Machine.beginOvr s).commits = 0 := hw
  rw [wholeFrames_of_tx rfl, hhung, hcommits]
  simp [Machine.beginOvr, hqidx, hiter]

end

theorem TickTo.keeps_wholeFrames {s t : State} (hs : Inv s) (hw : WholeFrames s) (h : TickTo s t) : WholeFrames t := by
  cases h with
  | stays => exact hw
  | calEnds hcal => exact hw.enterTx hcal
  | txEnds htx hwait hend => exact hw.enterDone htx hwait (hs.qidx_of_txEnds htx hend)
  | fails hsel hq => exact wholeFrames_of_fatal (by simp)
  | hangs hsel hq =>
    exact hw.insideFrame hsel (by simp) (by simp) (fun htx => by simp [beforeSlot_of_tx htx]) (by simp)
      (by rw [hungSlots_eq_one (slotHung_waiting _ _)]; simp)
  | slot x hsel hq =>
    refine hw.insideFrame hsel (by simp) (by simp) (fun htx => by simp [beforeSlot_of_tx htx]) (by simp) ?_
    rw [hungSlots_eq_zero (by simpa using (selected_ne_none hsel).1), setQidx_qidx, qidx_succ hq]
  | calFaults x c => exact wholeFrames_of_fatal rfl
  | calFrame x hsel hcal hq => exact hw.frameCorrected hsel hcal hq x
  | calLast x hsel hcal hq => exact (hw.frameCorrected hsel hcal hq x).enterTx (by simpa using hcal)
  | txFrame x hsel htx hq => exact hw.endRepetition hsel htx hq x
  | txLast x hsel htx hq =>
    exact (hw.endRepetition hsel htx hq x).enterDone (by simpa using htx) (by simpa using (selected_ne_none hsel).1)
      (by simp)

/-- Settles O58: a row or an ignored input commits nothing, a run begins at 0 commits, a reset empties the history, and
each end of a tick keeps the count. -/
theorem stepKeepsWholeFrames : Obligations.StepKeepsWholeFrames := by
  intro s t hs hw h
  rcases step_next h with ⟨_, _, v, _, rfl⟩ | ⟨_, _, _, _, _, _, _, ⟨_, rfl⟩ | ⟨_, rfl⟩⟩
    | ⟨_, ⟨hstart, _, rfl⟩ | ⟨hstart, _, rfl⟩ | ⟨_, rfl⟩⟩ | ⟨_, rfl⟩ | ⟨_, h⟩
  · exact hw
  · exact hw
  · exact hw
  · exact WholeFrames.beginCal (s := s.moveOn) hw hs.moveOn (mayStart_iff.mp hstart).1
  · exact WholeFrames.beginOvr (s := s.moveOn) hw hs.moveOn (mayStart_iff.mp hstart).1
  · exact hw
  · rfl
  · exact (tickTo_of_tick h).keeps_wholeFrames hs.moveOn hw

/-! ### The line -/

section
variable {s : State}

theorem lineAgrees_of_run (h : s.phase = .cal ∨ s.phase = .tx) : LineAgrees s ↔
    s.line = if s.waiting.isSome then levelAt s.active.pack s.qidx.toNat
      else if s.qidx = 0 then false else levelAt s.active.pack (s.qidx.toNat - 1) := by
  rcases h with h | h <;> simp [LineAgrees, h]

theorem lineAgrees_of_idle (h : s.phase = .idle) : LineAgrees s ↔ s.line = false := by simp [LineAgrees, h]

theorem lineAgrees_of_done (h : s.phase = .done) : LineAgrees s ↔ s.line = false := by simp [LineAgrees, h]

theorem lineAgrees_of_fatal (h : s.phase = .fatal) : LineAgrees s := by simp [LineAgrees, h]

/-- The line's agreement speaks of six registers. -/
theorem LineAgrees.congr {t : State} (hl : LineAgrees s) (hphase : t.phase = s.phase) (hp : t.p = s.p)
    (hline : t.line = s.line) (hwait : t.waiting = s.waiting) (hq : t.qidx = s.qidx) : LineAgrees t := by
  unfold LineAgrees at *
  rw [hphase, hline, hwait, hq, active_congr hphase hp]
  exact hl

/-- Between frames the line is low. -/
theorem lineAgrees_between_frames (hrun : s.phase = .cal ∨ s.phase = .tx) (hwait : s.waiting = none) (hq : s.qidx = 0) :
    LineAgrees s ↔ s.line = false := by
  rw [lineAgrees_of_run hrun]
  simp [hwait, hq]

/-- The last slot of every frame is low (30_encoding.md R55). -/
theorem frameSent_line_of_last (hq : s.qidx.toNat = 175) (x : Nat) : (frameSent x s).line = false := by
  rw [frameSent_line, hq, levelAt_last]

theorem LineAgrees.hangs (hsel : s.selected ≠ none) : LineAgrees (slotHung s.active.pack (beforeSlot s)) := by
  have hrun := (mayAct_iff.mp (mayAct_of_selected hsel)).1
  have hactive : (slotHung s.active.pack (beforeSlot s)).active = s.active := active_congr (by simp) (by simp)
  rw [lineAgrees_of_run (by simpa using hrun), hactive]
  simp

theorem LineAgrees.slot (hsel : s.selected ≠ none) (hq : s.qidx.toNat < 175) (x : Nat) :
    LineAgrees ((slotDone s.active.pack x (beforeSlot s)).setQidx (s.qidx + 1)) := by
  have hrun := (mayAct_iff.mp (mayAct_of_selected hsel)).1
  have hwait := (selected_ne_none hsel).1
  have hactive : ((slotDone s.active.pack x (beforeSlot s)).setQidx (s.qidx + 1)).active = s.active :=
    active_congr (by simp) (by simp)
  have hnext : (s.qidx + 1).toNat = s.qidx.toNat + 1 := qidx_succ hq
  have hne : s.qidx + 1 ≠ 0 := fun h => absurd (hnext.symm.trans (congrArg BitVec.toNat h)) (Nat.succ_ne_zero _)
  rw [lineAgrees_of_run (by simpa using hrun), hactive, setQidx_waiting, slotDone_waiting, beforeSlot_waiting, hwait,
    setQidx_qidx, if_neg (by simp), if_neg hne, hnext, setQidx_line, slotDone_line, beforeSlot_qidx, Nat.add_sub_cancel]

end

theorem TickTo.keeps_lineAgrees {s t : State} (hs : Inv s) (hl : LineAgrees s) (h : TickTo s t) : LineAgrees t := by
  cases h with
  | stays => exact hl
  | calEnds hcal hwait hend =>
    have hq := hs.qidx_of_calEnds hcal hend
    rw [lineAgrees_between_frames (.inl hcal) hwait hq] at hl
    exact (lineAgrees_between_frames (s := s.enterTx) (.inr rfl) hwait hq).mpr hl
  | txEnds htx hwait hend =>
    rw [lineAgrees_between_frames (.inr htx) hwait (hs.qidx_of_txEnds htx hend)] at hl
    exact (lineAgrees_of_done (s := s.enterDone) rfl).mpr hl
  | fails hsel hq => exact lineAgrees_of_fatal (by simp)
  | hangs hsel hq => exact .hangs hsel
  | slot x hsel hq => exact .slot hsel hq x
  | calFaults x c => exact lineAgrees_of_fatal rfl
  | calFrame x hsel hcal hq =>
    rw [lineAgrees_between_frames (.inl (by simpa using hcal)) (by simpa using (selected_ne_none hsel).1) (by simp)]
    simpa using frameSent_line_of_last hq x
  | calLast x hsel hcal hq =>
    rw [lineAgrees_between_frames (.inr rfl) (by simpa using (selected_ne_none hsel).1) (by simp)]
    simpa using frameSent_line_of_last hq x
  | txFrame x hsel htx hq =>
    rw [lineAgrees_between_frames (.inr (by simpa using htx)) (by simpa using (selected_ne_none hsel).1) (by simp)]
    simpa using frameSent_line_of_last hq x
  | txLast x hsel htx hq =>
    rw [lineAgrees_of_done rfl]
    simpa using frameSent_line_of_last hq x

/-- In `IDLE` the line is at its reset level, and a run begins at position 0. -/
theorem Inv.lineAgrees_of_start {s t : State} (hs : Inv s) (hidle : s.phase = .idle)
    (hrun : t.phase = .cal ∨ t.phase = .tx) (hwait : t.waiting = s.waiting) (hq : t.qidx = s.qidx)
    (hline : t.line = s.line) : LineAgrees t := by
  obtain ⟨_, _, hqidx, _, hlow⟩ := hs.idle_fresh hidle
  have hnone := hs.waiting_of_not_inRun (by simp [State.inRun, hidle])
  rw [lineAgrees_between_frames hrun (hwait.trans hnone) (hq.trans hqidx), hline, hlow]

/-- Settles O59: no input moves the line but a reset, which sets it low; a run begins between frames; each end of a tick
leaves the line at the slot before the position. -/
theorem stepKeepsLineAgreement : Obligations.StepKeepsLineAgreement := by
  intro s t hs hl h
  rcases step_next h with ⟨_, _, v, _, rfl⟩ | ⟨_, _, _, _, _, _, _, ⟨hidle, rfl⟩ | ⟨_, rfl⟩⟩
    | ⟨_, ⟨hstart, _, rfl⟩ | ⟨hstart, _, rfl⟩ | ⟨_, rfl⟩⟩ | ⟨_, rfl⟩ | ⟨_, h⟩
  · exact hl.congr rfl rfl rfl rfl rfl
  · exact (lineAgrees_of_idle (s := s.moveOn.loadParams _ _) hidle).mpr ((lineAgrees_of_idle hidle).mp hl)
  · exact hl.congr rfl rfl rfl rfl rfl
  · exact hs.moveOn.lineAgrees_of_start (mayStart_iff.mp hstart).1 (.inl rfl) rfl rfl rfl
  · exact hs.moveOn.lineAgrees_of_start (mayStart_iff.mp hstart).1 (.inr rfl) rfl rfl rfl
  · exact hl.congr rfl rfl rfl rfl rfl
  · rfl
  · exact (tickTo_of_tick h).keeps_lineAgrees hs.moveOn (hl.congr rfl rfl rfl rfl rfl)

/-- Settles O60: nothing is committed and the line is low. -/
theorem runInvariantsAtReset : Obligations.RunInvariantsAtReset := ⟨rfl, rfl⟩

end Sys2Proof.Machine
end

section
/-! The PhaseTransmitter's composite rows (41_phase_transmitter.md): TRANSMIT, SEND and CALFRAME with the environment's
answers supplied, a frame that the sink cuts, a wait that never ends, and what every transmitter row leaves unchanged. -/

namespace Sys2Proof.Machine

/-! ### The row is its operation wherever the sequencer can act (30_encoding.md R69) -/

section
variable {s : State}

theorem exec_transmit (w : LogicalWord) (h : s.mayAct = true) : exec (.transmit w) s = (transmitWord w s).outcome := by
  show execTransmit w s = _
  rw [execTransmit, h, whenSelected_true]

theorem exec_send (h : s.mayAct = true) : exec .send s = (sendActive s).outcome := by
  show execSend s = _
  rw [execSend, h, whenSelected_true]

theorem exec_calframe (h : s.mayCalibrate = true) : exec .calframe s = (sendActive s).outcome := by
  show execCalframe s = _
  rw [execCalframe, h, whenSelected_true]

theorem mayAct_of_cal (hcal : s.phase = .cal) (hwait : s.waiting = none) : s.mayAct = true :=
  mayAct_iff.mpr ⟨.inl hcal, hwait⟩

/-! ### A wait that never ends (43_run_control.md R123) -/

theorem waitFor_never (tu : Micros) (hx : s.env.nextWait = .never) :
    waitFor tu s = .cut ((s.mapEnv Env.tookWait).hang tu) := by
  rw [waitFor, hx]

/-- The registers in a slot whose wait never ends, as one record: the commit is made and recorded. -/
theorem slotHung_eq (w : LogicalWord) (s : State) : slotHung w s =
    { s with waiting := some s.tu, line := levelAt w s.qidx.toNat, hist := .commit (levelAt w s.qidx.toNat) :: s.hist,
             env := { s.env.tookSink.tookWait with pin := levelAt w s.qidx.toNat } } := by
  simp only [slotHung, State.hang, State.mapEnv, State.driveLine, State.record, Env.setPin, Env.tookSink, Env.tookWait]

end

/-- Settles O27: the hang is the cut end of the wait; a hung core cannot act, so every tick leaves it where it is. -/
theorem waitThatNeverEnds : Obligations.WaitThatNeverEnds := by
  refine ⟨fun tu s h hx => ?wait, fun w s h hq hs hx => ?qstep, fun s hhung hi => ?stays, fun s _ => ?reset⟩
  case wait =>
    rw [exec_wait tu h, waitFor_never tu hx]
    rfl
  case qstep => rw [exec_qstep w h, quarterStep_hangs hq hs hx, Res.outcome_cut, slotHung_eq]
  case stays => exact core_run_of_not_mayAct hi (mayAct_of_hung hhung)
  case reset => exact ⟨resetFrom s, exec_reset s, rfl, rfl⟩

/-! ### Frames with the answers supplied -/

/-- Settles O28: the frame of `transmitWord_tapes`. -/
theorem transmitRow : Obligations.TransmitRow := by
  intro w s xs sk wk h hlen hsink hwaits
  rw [exec_transmit w h, transmitWord_tapes w s xs sk wk hlen hsink hwaits]
  rfl

/-- Settles O29: the frame of `slotsFrom_fail`, begun at slot 0. -/
theorem transmitStopsAtTheFailingSlot : Obligations.TransmitStopsAtTheFailingSlot := by
  intro w s q xs sk wk h hq hlen hsink hwaits
  subst hlen
  obtain ⟨e, hcut, hrest⟩ := slotsFrom_fail w 175 (s.setQidx 0) xs sk wk hq rfl hsink hwaits
  refine ⟨e, ?_, hrest⟩
  rw [exec_transmit w h, transmitWord, hcut, Res.outcome_cut, slotsCut]
  simp

/-- The repetitions of SEND, `REP` counted from 0: the count is that of the frames sent, and `CANCELLED` compares it as a
number. -/
theorem repetitionsSent_setRep_zero {rs : List (List Nat × Bool)} {c : Bool} {sk ck : List Bool} {wk : List WaitAnswer}
    {s : State} (hlen : rs.length < 65536) : repetitionsSent rs c sk ck wk (s.setRep 0) =
      { s with rep := BitVec.ofNat _ rs.length, qidx := 0, line := false,
               cancelled := s.cancelled || (c && s.phase == .tx && decide (rs.length < s.p.rpt.toNat)),
               hist := (sendEvents s.active.pack s.tu rs).reverse ++ s.hist,
               env := { s.env with sink := sk, cancel := ck, waits := wk, pin := false,
                                   now := s.env.now + waitsTime s.tu (rs.flatMap Prod.fst) } } := by
  have hactive : (s.setRep 0).active = s.active := active_congr rfl rfl
  have hrep : (0 : RepeatCount) + BitVec.ofNat 16 rs.length = BitVec.ofNat _ rs.length := BitVec.zero_add _
  have hless : (BitVec.ofNat Config.repeatW rs.length).ult s.p.rpt = decide (rs.length < s.p.rpt.toNat) := by
    rw [BitVec.ult, BitVec.toNat_ofNat, Nat.mod_eq_of_lt (by simpa using hlen)]
  simp only [repetitionsSent, hactive, setRep_rep, hrep, setRep_phase, setRep_p, hless, Bool.and_assoc]
  rfl

/-- SEND with the answers of `k` frames supplied (R92, R93). -/
theorem sendActive_tapes {s : State} {rs : List (List Nat × Bool)} {c : Bool} {sk ck : List Bool} {wk : List WaitAnswer}
    (h1 : 1 ≤ rs.length) (hle : rs.length ≤ s.active.rpt.toNat) (hlen : ∀ r ∈ rs, r.1.length = 176)
    (hflags : rs.map Prod.snd = List.replicate (rs.length - 1) false ++ [c])
    (hend : c = true ∨ rs.length = s.active.rpt.toNat) (hsink : s.env.sink = List.replicate (176 * rs.length) true ++ sk)
    (hcancel : s.env.cancel = rs.map Prod.snd ++ ck)
    (hwaits : s.env.waits = (rs.flatMap Prod.fst).map .ends ++ wk) :
    sendActive s = .ok () (repetitionsSent rs c sk ck wk (s.setRep 0)) :=
  repetitions_tapes rs s.active.rpt.toNat (s.setRep 0) c sk ck wk h1 hle hlen hflags hend hsink hcancel hwaits

theorem rpt_lt (n : RepeatCount) : n.toNat < 65536 := n.isLt

/-- Settles O30: the repetitions of `sendActive_tapes`. -/
theorem sendRow : Obligations.SendRow := by
  intro s k rs c sk ck wk h hk h1 hle hlen hflags hend hsink hcancel hwaits
  subst hk
  rw [exec_send h, sendActive_tapes h1 hle hlen hflags hend hsink hcancel hwaits, Res.outcome_ok,
    repetitionsSent_setRep_zero (lt_of_le_of_lt hle (rpt_lt _))]

/-- With no repetition asked for, SEND only sets `REP` to 0. -/
theorem sendActive_nothing {s : State} (h : s.active.rpt = 0) : sendActive s = .ok () (s.setRep 0) := by
  rw [sendActive, h]
  rfl

/-- Settles O31: the loop of SEND is not entered. -/
theorem sendNothing : Obligations.SendNothing := by
  intro s h hzero
  rw [exec_send h, sendActive_nothing hzero]
  rfl

/-- Settles O37: in `CAL` the active parameters are the dummy, whose word is 0 and which is sent once. -/
theorem calframeRow : Obligations.CalframeRow := by
  intro s xs sk c ck wk hcal hwait hlen hsink hcancel hwaits
  have hsend := exec_send (mayAct_of_cal hcal hwait)
  have hcalframe := exec_calframe (mayCalibrate_iff.mpr ⟨hcal, hwait⟩)
  refine ⟨hcalframe.trans hsend.symm, ?_⟩
  rw [hcalframe, sendActive_cal hcal xs sk c ck wk hlen hsink hcancel hwaits, Res.outcome_ok,
    repetitionsSent_setRep_zero (by simp), active_of_cal hcal, calParams_pack]
  simp [hcal, sendEvents]

/-! ### What the transmitter's rows leave unchanged -/

theorem Kept.sinkFailed (s : State) : Kept s (sinkFailed s) :=
  ⟨sinkFailed_p s, sinkFailed_written s, sinkFailed_ovr s, sinkFailed_iter s, sinkFailed_tu s, sinkFailed_tuf s,
    sinkFailed_t0 s, sinkFailed_doneFlag s, sinkFailed_out s, sinkFailed_inputs s,
    ⟨[.fault .sinkFault], sinkFailed_hist s⟩, sinkFailed_drift s, (sinkFailed_now s).ge⟩

/-- A commit that drives the line. -/
theorem Live.committed (l : Level) (s : State) :
    Live s (((s.mapEnv Env.tookSink).driveLine l).record (.commit l)) where
  p := by simp
  written := by simp
  ovr := by simp
  iter := by simp
  tu := by simp
  tuf := by simp
  t0 := by simp
  doneFlag := by simp
  out := by simp
  inputs := by simp
  hist := ⟨[.commit l], rfl⟩
  drift := by simp
  now := by simp
  phase := by simp
  busy := by simp
  fatalFlag := by simp
  cause := by simp
  cancelled := by simp
  waiting := by simp

/-- A wait that ended after `d` ns. -/
theorem Going.waited (tu : Micros) (d : Nat) (s : State) :
    Going s (((s.mapEnv Env.tookWait).mapEnv (Env.advance d)).record (.wait tu d)) where
  p := by simp
  written := by simp
  ovr := by simp
  iter := by simp
  tu := by simp
  tuf := by simp
  t0 := by simp
  doneFlag := by simp
  out := by simp
  inputs := by simp
  hist := ⟨[.wait tu d], rfl⟩
  drift := by simp
  now := by simp
  phase := by simp
  busy := by simp
  fatalFlag := by simp
  cause := by simp
  cancelled := by simp

/-- A wait that never ends. -/
theorem Going.hung (tu : Micros) (s : State) : Going s ((s.mapEnv Env.tookWait).hang tu) where
  p := by simp
  written := by simp
  ovr := by simp
  iter := by simp
  tu := by simp
  tuf := by simp
  t0 := by simp
  doneFlag := by simp
  out := by simp
  inputs := by simp
  hist := ⟨[], rfl⟩
  drift := by simp
  now := by simp
  phase := by simp
  busy := by simp
  fatalFlag := by simp
  cause := by simp
  cancelled := by simp

/-- A SinkFault was taken in a run, and no wait is pending. -/
def SinkFaulted (t : State) : Prop :=
  t.phase = .fatal ∧ t.busy = false ∧ t.fatalFlag = true ∧ t.cause = 1 ∧ t.waiting = none
    ∧ t.hist.head? = some (.fault .sinkFault)

theorem SinkFaulted.sinkFailed {s : State} (hwait : s.waiting = none) : SinkFaulted (sinkFailed s) :=
  ⟨sinkFailed_phase s, sinkFailed_busy s, sinkFailed_fatalFlag s, sinkFailed_cause s, (sinkFailed_waiting s).trans hwait,
    by rw [sinkFailed_hist]; rfl⟩

theorem Cut.sinkFaulted {s t : State} (h : Cut s t) (hwait : s.waiting = none) : SinkFaulted t :=
  ⟨h.phase, h.busy, h.fatalFlag, h.cause, h.waiting.trans hwait, h.head⟩

/-- What a transmitter's row leaves as it was: no fault was taken, or a SinkFault was. -/
def RowFrame (s t : State) : Prop := Going s t ∨ (Kept s t ∧ SinkFaulted t)

theorem RowFrame.kept {s t : State} (h : RowFrame s t) : Kept s t := h.elim (fun h => h.toKept) fun h => h.1

theorem Live.rowFrame {s t : State} (h : Live s t) : RowFrame s t := .inl h.toGoing

theorem Stop.rowFrame {s t : State} (h : Stop s t) (hwait : s.waiting = none) : RowFrame s t :=
  h.elim (fun h => .inr ⟨h.toKept, h.sinkFaulted hwait⟩) fun h => .inl h.toGoing

/-- An operation that ends live or stopped has the frame. -/
theorem Res.Ends.rowFrame {r : Res Unit} {s t : State} {P : State → Prop}
    (h : r.Ends (fun _ t => Live s t ∧ P t) (Stop s)) (hwait : s.waiting = none) (ht : r.outcome = .next t) :
    RowFrame s t :=
  (h.next ht).elim (fun ⟨_, hlive⟩ => hlive.1.rowFrame) fun hstop => hstop.rowFrame hwait

/-- A commit drives the line or faults; it does not wait. -/
theorem exec_commit_frame {l : Level} {s t : State} (h : exec (.commit l) s = .next t) :
    RowFrame s t ∧ t.waiting = none := by
  obtain ⟨hact, -⟩ := whenSelected_next h
  have hwait := (mayAct_iff.mp hact).2
  cases hs : s.env.nextSink with
  | true =>
    cases (exec_commit_drives l hact hs).symm.trans h
    exact ⟨(Live.committed l s).rowFrame, hwait⟩
  | false =>
    cases (exec_commit_fails l hact hs).symm.trans h
    exact ⟨.inr ⟨.sinkFailed s, .sinkFailed hwait⟩, hwait⟩

theorem exec_wait_frame {tu : Micros} {s t : State} (h : exec (.wait tu) s = .next t) : RowFrame s t := by
  obtain ⟨hact, -⟩ := whenSelected_next h
  rw [exec_wait tu hact] at h
  cases hx : s.env.nextWait with
  | ends x =>
    rw [waitFor_ends tu hx] at h
    cases h
    exact .inl (.waited tu _ s)
  | never =>
    rw [waitFor_never tu hx] at h
    cases h
    exact .inl (.hung tu s)

theorem exec_transmitter_frame {i : Instr} {s t : State}
    (hi : (∃ l, i = .commit l) ∨ (∃ tu, i = .wait tu) ∨ (∃ w, i = .qstep w) ∨ (∃ w, i = .transmit w) ∨ i = .send
      ∨ i = .calframe) (h : exec i s = .next t) : RowFrame s t := by
  rcases hi with ⟨l, rfl⟩ | ⟨tu, rfl⟩ | ⟨w, rfl⟩ | ⟨w, rfl⟩ | rfl | rfl
  · exact (exec_commit_frame h).1
  · exact exec_wait_frame h
  · obtain ⟨hact, ht⟩ := whenSelected_next h
    exact (quarterStep_keeps w s).rowFrame (mayAct_iff.mp hact).2 ht
  · obtain ⟨hact, ht⟩ := whenSelected_next h
    exact (transmitWord_keeps w s).rowFrame (mayAct_iff.mp hact).2 ht
  · obtain ⟨hact, ht⟩ := whenSelected_next h
    exact (sendActive_keeps s).rowFrame (mayAct_iff.mp hact).2 ht
  · obtain ⟨hcal, ht⟩ := whenSelected_next h
    exact (sendActive_keeps s).rowFrame (mayCalibrate_iff.mp hcal).2 ht

/-- Settles O32: `RowFrame` of each of the six rows. -/
theorem transmitterFrame : Obligations.TransmitterFrame := by
  intro i s t hi h
  have hframe := exec_transmitter_frame hi h
  have hkept := hframe.kept
  refine ⟨hkept.p, hkept.written, hkept.ovr, hkept.iter, hkept.tu, hkept.tuf, hkept.t0, hkept.doneFlag, hkept.out,
    hkept.inputs, hkept.hist, hkept.drift, hframe.imp (fun hgoing => ?_) fun hfault => hfault.2⟩
  refine ⟨hgoing.phase, hgoing.busy, hgoing.fatalFlag, hgoing.cause, ?_⟩
  rintro ⟨l, rfl⟩
  exact (exec_commit_frame h).2

/-! ### Where the sequencer position selects nothing (30_encoding.md R69) -/

/-- Settles O33: each operation is performed under a condition that does not hold there. -/
theorem operationsOnlyWhereSelected : Obligations.OperationsOnlyWhereSelected := by
  have hrefused {c : Bool} {o : Host.Outcome State Fault Refusal} (hc : c = false) :
      whenSelected c o = .refused .notSelected := by rw [hc, whenSelected_false]
  intro s
  refine ⟨fun h l tu w c => ?act, fun h m => ?calibrate, fun h => ?runCal, fun h => ?runOvr⟩
  case act =>
    have hact : s.mayAct = false := h.elim mayAct_of_not_inRun mayAct_of_hung
    have hraise : s.mayRaise c = false := by
      have hcal : s.mayCalibrate = false := Bool.eq_false_iff.mpr fun hcal => by
        obtain ⟨hphase, hwait⟩ := mayCalibrate_iff.mp hcal
        rw [mayAct_of_cal hphase hwait] at hact
        cases hact
      cases c
      · exact hact
      · exact hcal
      · exact hcal
    exact ⟨hrefused hact, hrefused hact, hrefused hact, hrefused hact, hrefused hact, hrefused hraise⟩
  case calibrate =>
    have hcal : s.mayCalibrate = false := Bool.eq_false_iff.mpr fun hcal =>
      h.elim (fun hphase => hphase (mayCalibrate_iff.mp hcal).1) fun hwait => hwait (mayCalibrate_iff.mp hcal).2
    exact ⟨hrefused hcal, hrefused hcal, hrefused hcal, hrefused hcal, hrefused hcal, hrefused hcal, hrefused hcal⟩
  case runCal =>
    exact hrefused (h.elim (fun h => by rw [h, Bool.false_and]) fun h => by rw [beq_false_of_ne h, Bool.and_false])
  case runOvr => exact hrefused (by rcases h with h | h <;> simp [h])

end Sys2Proof.Machine
end

section
/-! The Calibrator's rows that send a frame (42_calibrator.md): a measurement and a calibration with the environment's
answers supplied, the bounds of R113, and what every calibrator row leaves unchanged. -/

namespace Sys2Proof.Machine

/-! ### The row is its operation wherever the Calibrator can act (30_encoding.md R69) -/

section
variable {s : State}

theorem exec_calMeasure (h : s.mayCalibrate = true) : exec .calMeasure s
    = ((measure s).andThen fun meas t => .ok () (t.present (.measured meas))).outcome := by
  show execCalMeasure s = _
  rw [execCalMeasure, h, whenSelected_true]

theorem exec_calibrate (h : s.mayCalibrate = true) : exec .calibrate s = (calibrateAll s).outcome := by
  show execCalibrate s = _
  rw [execCalibrate, h, whenSelected_true]

end

/-! ### With the answers supplied -/

/-- Settles O35: the measurement of `measure_tapes`, presented. -/
theorem calMeasureRow : Obligations.CalMeasureRow := by
  intro s xs sk c ck wk d0 d1 dk hcal hwait hlen hsink hcancel hwaits hdrift hnow
  rw [exec_calMeasure (mayCalibrate_iff.mpr ⟨hcal, hwait⟩),
    measure_tapes s xs sk c ck wk d0 d1 dk hcal hlen hsink hcancel hwaits hdrift hnow]
  rfl

/-- With less than a microsecond of overhead a slot the correction stays at the nominal value. -/
theorem steadyCorrection_nominal {x : Nat} (h : x < 1000) : steadyCorrection x 250 = 250 := by
  simp [steadyCorrection, Nat.div_eq_of_lt h]

/-- Ten iterations under a constant overhead, from the seed on (R108, R111). -/
theorem calibrateAll_steady {s : State} {x : Nat} {sk cs ck : List Bool} {wk : List WaitAnswer} {dk : List Nat}
    (hcal : s.phase = .cal) (hfree : s.tuf = false) (hlen : cs.length = 10)
    (hsink : s.env.sink = List.replicate 1760 true ++ sk) (hcancel : s.env.cancel = cs ++ ck)
    (hwaits : s.env.waits = List.replicate 1760 (.ends x) ++ wk) (hdrift : s.env.drift = List.replicate 20 0 ++ dk)
    (hnow : s.env.now + 1760 * (250000 + x) < 2 ^ 64) :
    ∃ t, calibrateAll s = .ok () t ∧ SteadyEnd x 10 sk cs ck wk dk (seed s) t ∧ CalLive s t := by
  have htu : (seed s).tu.toNat = 250 := by rw [seed_of_not_frozen hfree]; rfl
  obtain ⟨t, e, hend⟩ := iterations_steady x 10 (seed s) sk cs ck wk dk hcal hfree (by rw [htu])
    (fun _ => htu) (by simp [seed]) hlen hsink hcancel hwaits hdrift hnow
  have hkeeps := calibrateAll_keeps hcal
  rw [calibrateAll, e, Res.ends_ok] at hkeeps
  exact ⟨t, e, hend, hkeeps.1⟩

/-- Settles O38: `calibrateAll_steady`, the seed's registers read off. -/
theorem calibrateUnderConstantOverhead : Obligations.CalibrateUnderConstantOverhead := by
  intro s x sk cs ck wk dk hcal hwait hfree hlen hsink hcancel hwaits hdrift hnow
  obtain ⟨t, e, hend, hlive⟩ := calibrateAll_steady hcal hfree hlen hsink hcancel hwaits hdrift hnow
  have hseed : seed s = { s with tu := 250, iter := 0 } := seed_of_not_frozen hfree
  rw [hseed] at hend
  obtain ⟨hrep, hqidx, hline⟩ := hend.last (by decide)
  have htu : t.tu.toNat = (steadyCorrection x)^[10] 250 := hend.tu
  have hnominal (hx : x < 1000) : t.tu = 250 := BitVec.eq_of_toNat_eq
    (htu.trans (Function.iterate_fixed (steadyCorrection_nominal hx) 10))
  exact ⟨t, by rw [exec_calibrate (mayCalibrate_iff.mpr ⟨hcal, hwait⟩), e, Res.outcome_ok], hend.phase,
    BitVec.eq_of_toNat_eq hend.iter, htu, hnominal, hrep, hqidx, hline, hend.hist, hend.commits, hend.clocks, hend.flags,
    hlive.waiting.trans hwait, hlive.p, hlive.written, hlive.ovr, hlive.tuf, hlive.busy, hlive.doneFlag, hlive.fatalFlag,
    hlive.cancelled, hlive.cause, hlive.out, hlive.inputs, hend.sink, hend.cancel, hend.waits, hend.drift⟩

/-! ### The bounds of R113 -/

/-- Both ends of an operation, by two lemmas about it. -/
theorem Res.Ends.and {α : Type} {P P' : α → State → Prop} {Q Q' : State → Prop} {r : Res α} (h : r.Ends P Q)
    (k : r.Ends P' Q') : r.Ends (fun a s => P a s ∧ P' a s) (fun s => Q s ∧ Q' s) := by
  cases r with
  | ok => exact ⟨h, k⟩
  | cut => exact ⟨h, k⟩
  | stuck => trivial
  | refused => trivial

/-- In `CAL` a SEND is one frame of the dummy and the end of its repetition, whatever the flag answers (R93). -/
theorem sendActive_of_cal {s : State} (hcal : s.phase = .cal) : sendActive s
    = (slotsFrom s.active.pack 175 ((s.setRep 0).setQidx 0)).andThen fun _ t => .ok () (endRepetition t) := by
  have hrpt : s.active.rpt.toNat = 1 := by rw [active_of_cal hcal]; rfl
  have hpack : (s.setRep 0).active.pack = s.active.pack := congrArg _ (active_congr rfl rfl)
  rw [sendActive, hrpt, repetitions, transmitWord, hpack]
  congr 1
  funext _ t
  split <;> rfl

/-- A slot lasts at least the `TU` it was asked for (41_phase_transmitter.md R89). -/
theorem quarterStep_time (w : LogicalWord) (s : State) :
    (quarterStep w s).Ends (fun _ t => s.env.now + 1000 * s.tu.toNat ≤ t.env.now ∧ t.tu = s.tu ∧ t.t0 = s.t0)
      fun _ => True := by
  rcases quarterStep_cases w s with ⟨_, _, x, _, h⟩ | ⟨_, _, h⟩ | ⟨_, _, _, h⟩ | ⟨_, h⟩ <;> rw [h]
  · refine ⟨?_, slotDone_tu w x s, slotDone_t0 w x s⟩
    rw [slotDone_now]
    omega
  all_goals trivial

/-- The slots of a frame add up. -/
theorem slotsFrom_time (w : LogicalWord) : ∀ (n : Nat) (s : State),
    (slotsFrom w n s).Ends
      (fun _ t => s.env.now + (n + 1) * (1000 * s.tu.toNat) ≤ t.env.now ∧ t.tu = s.tu ∧ t.t0 = s.t0) fun _ => True
  | 0, s => (quarterStep_time w s).andThen fun _ t ⟨hnow, htu, ht0⟩ => ⟨by simpa using hnow, htu, ht0⟩
  | n + 1, s => (quarterStep_time w s).andThen fun _ t ⟨hnow, htu, ht0⟩ =>
      (slotsFrom_time w n (t.setQidx (t.qidx + 1))).mono
        (fun _ u ⟨know, ktu, kt0⟩ => by
          rw [setQidx_env, setQidx_tu, htu] at know
          refine ⟨?_, ktu.trans htu, kt0.trans ht0⟩
          rw [Nat.succ_mul (n + 1)]
          omega)
        fun _ k => k

/-- Two readings of the clock below 2^64 ns (D9) that lie a whole frame apart give a measurement of at least `TU`. -/
theorem le_measOf {tu a b : Nat} (hb : b < 2 ^ 64) (h : a + 176 * (1000 * tu) ≤ b) :
    tu ≤ measOf (clockValue b - clockValue a) := by
  rw [clockValue_lt hb, clockValue_lt (by omega), measOf, BitVec.toNat_sub, BitVec.toNat_ofNat, BitVec.toNat_ofNat,
    Nat.le_div_iff_mul_le (by decide), Nat.le_div_iff_mul_le (by decide)]
  simp only [two_pow_clkW, Config.calDivisorQp]
  omega

/-- Of a calibration, the causes it may end with: a fault of the sink, or the division by zero from `TU = 0`. -/
def CauseBound (s t : State) : Prop := t.cause = s.cause ∨ t.cause = 1 ∨ (t.cause = 2 ∧ t.tu = 0)

/-- A measurement is never less than `TU`, and only the sink faults in it. -/
theorem measure_bounds {s : State} (hcal : s.phase = .cal) :
    (measure s).Ends (fun m t => t.env.now < 2 ^ 64 → s.tu.toNat ≤ m) (CauseBound s) := by
  have hopen : (openMeasure s).phase = .cal := (openMeasure_phase s).trans hcal
  have htime := slotsFrom_time (openMeasure s).active.pack 175 (((openMeasure s).setRep 0).setQidx 0)
  have hstop := sendActive_keeps (openMeasure s)
  have hframe : (sendActive (openMeasure s)).Ends
      (fun _ t => s.env.now + s.env.nextDrift + 176 * (1000 * s.tu.toNat) ≤ t.env.now ∧ t.t0 = s.clockNext)
      fun _ => True := by
    rw [sendActive_of_cal hopen]
    exact htime.andThen fun _ t ⟨hnow, _, ht0⟩ => ⟨by simpa [Env.tookCancel] using hnow, by simpa using ht0⟩
  have hcause : ∀ t, Stop (openMeasure s) t → CauseBound s t := fun t hstop =>
    hstop.elim (fun hcut => .inr (.inl hcut.cause)) fun hhung => .inl (hhung.cause.trans (openMeasure_cause s))
  have hsend := (hframe.and hstop).mono (fun _ _ k => k.1) fun t k => hcause t k.2
  rw [measure]
  refine hsend.andThen ?_
  rintro _ t ⟨hnow, ht0⟩
  rw [closeMeasure, Res.ends_ok, ht0, State.clockNext, State.clockNext]
  intro hlt
  simp only [clockRead_env, env_tookDrift_now, env_advance_now] at hlt
  exact le_measOf hlt (by omega)

/-- A quotient by a measurement of at least `TU` is at most the nominal value. -/
theorem correction_le {tu : Micros} {m : Nat} (h : tu.toNat ≤ m) : correction tu m ≤ 250 :=
  Nat.div_le_of_le_mul (by rw [Nat.mul_comm m]; exact Nat.mul_le_mul_left _ h)

theorem correct_bounds {s u : State} {m : Nat} (hlive : CalLive s u) (htu : u.tu = s.tu) (hfree : s.tuf = false)
    (hm : u.env.now < 2 ^ 64 → s.tu.toNat ≤ m) :
    (correct m u).Ends (fun _ t => t.env.now < 2 ^ 64 → t.tu.toNat ≤ 250)
      fun t => t.env.now < 2 ^ 64 → CauseBound s t := by
  rcases correct_cases m u with ⟨h0, h⟩ | ⟨h0, hge, h⟩ | ⟨h0, hlt, h⟩ <;> rw [h]
  · intro hnow
    have hle := hm hnow
    refine .inr (.inr ⟨rfl, ?_⟩)
    rw [takeFault_tu, htu]
    exact BitVec.eq_of_toNat_eq (by rw [h0] at hle; exact Nat.le_zero.mp hle)
  · intro hnow
    have hle := correction_le (htu ▸ hm hnow)
    omega
  · intro hnow
    have hle := correction_le (htu ▸ hm hnow)
    rw [writeTU_of_not_frozen _ (hlive.tuf.trans hfree)]
    show (BitVec.ofNat Config.tuW (correction u.tu m)).toNat ≤ 250
    rw [BitVec.toNat_ofNat]
    exact (Nat.mod_le _ _).trans hle

theorem iteration_bounds {s : State} (hcal : s.phase = .cal) (hfree : s.tuf = false) :
    (iteration s).Ends (fun _ t => t.env.now < 2 ^ 64 → t.tu.toNat ≤ 250)
      fun t => t.env.now < 2 ^ 64 → CauseBound s t := by
  refine Res.Ends.andThen (((measure_bounds hcal).and (measure_keeps hcal)).mono (fun _ _ k => k) fun _ k _ => k.1) ?_
  rintro m u ⟨hm, hlive, _, _, _, htu⟩
  exact (correct_bounds hlive htu hfree hm).andThen fun _ t ht => ht

/-- The loop of CALIBRATE: time only goes on, so the bounds that hold below 2^64 ns hold at each iteration. -/
theorem iterations_bounds : ∀ (n : Nat) (s : State), s.phase = .cal → s.tuf = false →
    (s.env.now < 2 ^ 64 → s.tu.toNat ≤ 250) →
    (iterations n s).Ends (fun _ t => CalLive s t ∧ (t.env.now < 2 ^ 64 → t.tu.toNat ≤ 250))
      fun t => t.env.now < 2 ^ 64 → CauseBound s t
  | 0, s, _, _, htu => ⟨.refl s, htu⟩
  | n + 1, s, hcal, hfree, _ => by
    refine Res.Ends.andThen
      (((iteration_bounds hcal hfree).and (iteration_keeps hcal)).mono (fun _ _ k => k) fun _ k => k.1) ?_
    rintro _ u ⟨hu, hlive, _⟩
    refine (iterations_bounds n u (hlive.phase.trans hcal) (hlive.tuf.trans hfree) hu).mono
      (fun _ t k => ⟨hlive.trans k.1, k.2⟩) fun t k hnow => ?_
    exact (k hnow).imp (fun h => h.trans hlive.cause) id

theorem calibrateAll_bounds {s : State} (hcal : s.phase = .cal) (hfree : s.tuf = false) :
    (calibrateAll s).Ends (fun _ t => CalLive s t ∧ (t.env.now < 2 ^ 64 → t.tu.toNat ≤ 250))
      fun t => t.env.now < 2 ^ 64 → CauseBound s t := by
  have htu : (seed s).tu.toNat = 250 := by rw [seed_of_not_frozen hfree]; rfl
  exact (iterations_bounds 10 (seed s) hcal hfree fun _ => htu.le).mono
    (fun _ t k => ⟨(CalLive.seed s).trans k.1, k.2⟩) fun _ k => k

/-- Where an operation of the Calibrator was cut, the core has left `CAL` or is in a hang. -/
theorem CalStop.not_going {s t : State} (h : CalStop s t) : ¬(t.phase = .cal ∧ t.waiting = none) := by
  rintro ⟨hphase, hwait⟩
  rcases h with hcut | hhung
  · rw [hcut.phase] at hphase
    cases hphase
  · exact hhung.waiting hwait

/-- Settles O39: the bounds on one measurement and on the loop, each at the end the row came to. -/
theorem calibrationBounds : Obligations.CalibrationBounds := by
  intro s t hcal hfree hnow
  refine ⟨fun m h hphase hwait hout => ?measured, fun h => ?cause, fun h hphase hwait => ?nominal⟩
  case measured =>
    obtain ⟨hsel, hexec⟩ := whenSelected_next h
    have hends : ((measure s).andThen fun meas t => (.ok () (t.present (.measured meas)) : Res Unit)).Ends
        (fun _ t => ∀ m, t.out = .measured m → t.env.now < 2 ^ 64 → s.tu.toNat ≤ m) (CalStop s) := by
      refine Res.Ends.andThen
        (((measure_bounds hcal).and (measure_keeps hcal)).mono (fun _ _ k => k) fun _ k => k.2.1) ?_
      rintro m u ⟨hm, _⟩ m' hout hnow
      cases hout
      exact hm hnow
    rcases hends.next hexec with ⟨_, hm⟩ | hstop
    · exact hm m hout hnow
    · exact absurd ⟨hphase, hwait⟩ hstop.not_going
  case cause =>
    obtain ⟨hsel, hexec⟩ := whenSelected_next h
    rcases (calibrateAll_bounds hcal hfree).next hexec with ⟨_, hlive, _⟩ | hcause
    · exact .inl hlive.cause
    · exact hcause hnow
  case nominal =>
    obtain ⟨hsel, hexec⟩ := whenSelected_next h
    rcases ((calibrateAll_bounds hcal hfree).and (calibrateAll_keeps hcal)).next hexec with
      ⟨_, ⟨_, htu⟩, _, hiter, _⟩ | ⟨_, hstop, _⟩
    · exact ⟨htu hnow, hiter⟩
    · exact absurd ⟨hphase, hwait⟩ hstop.not_going

/-! ### What the Calibrator's rows leave unchanged -/

/-- A fault of the Calibrator or of the sink was taken. -/
def CalFaulted (t : State) : Prop := t.phase = .fatal ∧ t.busy = false ∧ t.fatalFlag = true ∧ t.cause ≠ 0

/-- What a calibrator's row leaves as it was: no fault was taken, or one was. -/
def CalRowFrame (s t : State) : Prop := CalGoing s t ∨ (CalKept s t ∧ CalFaulted t)

theorem CalRowFrame.kept {s t : State} (h : CalRowFrame s t) : CalKept s t := h.elim (fun h => h.toCalKept) fun h => h.1

theorem CalLive.rowFrame {s t : State} (h : CalLive s t) : CalRowFrame s t := .inl h.toCalGoing

theorem CalStop.rowFrame {s t : State} (h : CalStop s t) : CalRowFrame s t :=
  h.elim (fun h => .inr ⟨h.toCalKept, h.phase, h.busy, h.fatalFlag, h.cause⟩) fun h => .inl h.toCalGoing

/-- The flags of a row's frame, in the words of `CalibratorFrame`. -/
theorem CalRowFrame.flags {s t : State} (h : CalRowFrame s t) :
    (t.phase = s.phase ∧ t.busy = s.busy ∧ t.fatalFlag = s.fatalFlag ∧ t.cause = s.cause) ∨ CalFaulted t :=
  h.imp (fun h => ⟨h.phase, h.busy, h.fatalFlag, h.cause⟩) fun h => h.2

/-- A correction reads nothing of the environment: it writes `TU`, or takes a fault (R107). -/
theorem exec_calCorrect_frame {m : Nat} {s t : State} (h : exec (.calCorrect m) s = .next t) :
    CalRowFrame s t ∧ t.waiting = none ∧ t.env = s.env ∧ t.t0 = s.t0 ∧ t.line = s.line := by
  obtain ⟨hsel, hexec⟩ := whenSelected_next h
  have hwait := (mayCalibrate_iff.mp hsel).2
  have hfault (c : Cause) : CalRowFrame s (s.takeFault c) :=
    .inr ⟨⟨rfl, rfl, rfl, rfl, rfl, rfl, rfl, ⟨[.fault c], rfl⟩, Nat.le_refl _, rfl, fun _ => rfl⟩, rfl, rfl, rfl,
      causeCode_ne_zero c⟩
  rcases correct_cases m s with ⟨_, e⟩ | ⟨_, _, e⟩ | ⟨_, _, e⟩ <;> rw [e] at hexec <;> cases hexec
  · exact ⟨hfault _, hwait, rfl, rfl, rfl⟩
  · exact ⟨hfault _, hwait, rfl, rfl, rfl⟩
  · exact ⟨(CalLive.writeTU s _).rowFrame, hwait, rfl, rfl, rfl⟩

theorem exec_calSeed_frame {s t : State} (h : exec .calSeed s = .next t) :
    CalRowFrame s t ∧ t.waiting = none ∧ t.env = s.env ∧ t.t0 = s.t0 ∧ t.line = s.line := by
  obtain ⟨hsel, hexec⟩ := whenSelected_next h
  cases hexec
  exact ⟨(CalLive.seed s).rowFrame, (mayCalibrate_iff.mp hsel).2, rfl, rfl, rfl⟩

theorem exec_calibrate_frame {s t : State} (h : exec .calibrate s = .next t) : CalRowFrame s t := by
  obtain ⟨hsel, hexec⟩ := whenSelected_next h
  rcases (calibrateAll_keeps (mayCalibrate_iff.mp hsel).1).next hexec with ⟨_, hlive, _⟩ | ⟨hstop, _⟩
  · exact hlive.rowFrame
  · exact hstop.rowFrame

/-- A measurement has the frame but for the result it presents, and leaves `TU` and `ITER` alone. -/
theorem exec_calMeasure_frame {s t : State} (h : exec .calMeasure s = .next t) :
    ∃ u, CalRowFrame s u ∧ u.tu = s.tu ∧ u.iter = s.iter ∧ (t = u ∨ ∃ v, t = u.present v) := by
  obtain ⟨hsel, hexec⟩ := whenSelected_next h
  have hkeeps := measure_keeps (mayCalibrate_iff.mp hsel).1
  cases hm : measure s with
  | ok m u =>
    rw [hm] at hexec hkeeps
    cases hexec
    obtain ⟨hlive, _, _, hiter, htu⟩ := hkeeps
    exact ⟨u, hlive.rowFrame, htu, hiter, .inr ⟨_, rfl⟩⟩
  | cut u =>
    rw [hm] at hexec hkeeps
    cases hexec
    obtain ⟨hstop, hiter, htu⟩ := hkeeps
    exact ⟨_, hstop.rowFrame, htu, hiter, .inl rfl⟩
  | stuck f => rw [hm] at hexec; cases hexec
  | refused r => rw [hm] at hexec; cases hexec

/-- Settles O40: the frame of each of the four rows. -/
theorem calibratorFrame : Obligations.CalibratorFrame := by
  intro i s t hi h
  rcases hi with rfl | rfl | ⟨m, rfl⟩ | rfl
  · obtain ⟨hframe, hrest⟩ := exec_calSeed_frame h
    have hkept := hframe.kept
    exact ⟨hkept.p, hkept.written, hkept.ovr, hkept.tuf, hkept.doneFlag, hkept.cancelled, hkept.inputs, hkept.hist,
      fun _ => hrest, fun _ => hkept.out, nofun, hkept.frozen, hframe.flags⟩
  · obtain ⟨u, hframe, htu, hiter, ht⟩ := exec_calMeasure_frame h
    have hkept := hframe.kept
    have hflags := hframe.flags
    rcases ht with rfl | ⟨v, rfl⟩
    all_goals exact ⟨hkept.p, hkept.written, hkept.ovr, hkept.tuf, hkept.doneFlag, hkept.cancelled, hkept.inputs,
      hkept.hist, by simp, fun hne => absurd rfl hne, fun _ => ⟨htu, hiter⟩, hkept.frozen, hflags⟩
  · obtain ⟨hframe, hrest⟩ := exec_calCorrect_frame h
    have hkept := hframe.kept
    exact ⟨hkept.p, hkept.written, hkept.ovr, hkept.tuf, hkept.doneFlag, hkept.cancelled, hkept.inputs, hkept.hist,
      fun _ => hrest, fun _ => hkept.out, nofun, hkept.frozen, hframe.flags⟩
  · have hframe := exec_calibrate_frame h
    have hkept := hframe.kept
    exact ⟨hkept.p, hkept.written, hkept.ovr, hkept.tuf, hkept.doneFlag, hkept.cancelled, hkept.inputs, hkept.hist,
      by simp, fun _ => hkept.out, nofun, hkept.frozen, hframe.flags⟩

end Sys2Proof.Machine
end

section
/-! Run control (43_run_control.md): START, ABORT, and RUN in its two forms with the environment's answers supplied. -/

namespace Sys2Proof.Machine

/-! ### START (R118, R127) -/

section
variable {s : State}

theorem exec_start (h : s.mayStart = true) :
    exec .start s = .next (if s.ovr = 0 then beginCal s else beginOvr s) := by
  show execStart s = _
  rw [execStart, if_pos h]

theorem exec_start_ignored (h : s.mayStart = false) : exec .start s = .next s := by
  show execStart s = _
  rw [execStart, if_neg (by simp [h])]

theorem beginCal_of_not_frozen (h : s.tuf = false) :
    beginCal s = { s with busy := true, phase := .cal, tu := 250, iter := 0 } := by
  rw [beginCal, seed_of_not_frozen (s := s.enterCal) h]
  rfl

theorem beginOvr_of_not_frozen (h : s.tuf = false) :
    beginOvr s = { s with busy := true, phase := .tx, tu := s.ovr, tuf := true, rep := 0 } := by
  rw [beginOvr, writeTU_of_not_frozen _ h]
  rfl

end

/-- Settles O42: the two starts write their registers through the open write enable of `TU`; any other start is
ignored. -/
theorem startRow : Obligations.StartRow := by
  intro s
  refine ⟨fun hidle hwritten hfree hzero => ?cal, fun hidle hwritten hfree hovr => ?ovr,
    fun hidle hwritten => ?unwritten, fun hidle => ?outside⟩
  case cal => rw [exec_start (mayStart_iff.mpr ⟨hidle, hwritten⟩), if_pos hzero, beginCal_of_not_frozen hfree]
  case ovr => rw [exec_start (mayStart_iff.mpr ⟨hidle, hwritten⟩), if_neg hovr, beginOvr_of_not_frozen hfree]
  case unwritten => exact exec_start_ignored (by simp [State.mayStart, hwritten])
  case outside => exact exec_start_ignored (by simp [State.mayStart, hidle])

/-! ### ABORT (60_exceptions.md R133) -/

theorem exec_abort {c : Cause} {s : State} (h : s.mayRaise c = true) : exec (.abort c) s = .next (s.takeFault c) := by
  show execAbort c s = _
  rw [execAbort, h, whenSelected_true]

/-- Settles O44: `takeFault` where the fault can be raised; after it the core cannot act. -/
theorem abortRow : Obligations.AbortRow := by
  intro s
  refine ⟨fun hrun hwait => ?sink, fun hcal hwait => ?zero, fun hcal hwait => ?overflow, fun c t h hi n => ?final⟩
  case sink => exact exec_abort (c := .sinkFault) (mayAct_iff.mpr ⟨hrun, hwait⟩)
  case zero => exact exec_abort (c := .calDivideByZero) (mayCalibrate_iff.mpr ⟨hcal, hwait⟩)
  case overflow => exact exec_abort (c := .calOverflow) (mayCalibrate_iff.mpr ⟨hcal, hwait⟩)
  case final =>
    obtain ⟨_, hnext⟩ := whenSelected_next h
    cases hnext
    exact core_run_of_not_mayAct hi (mayAct_of_not_inRun rfl) n

/-! ### RUN with an override (R119, 42_calibrator.md R110) -/

section
variable {s : State}

theorem exec_runOvr (h : s.mayStart = true) (hovr : s.ovr ≠ 0) : exec .runOvr s = (runWithOvr s).outcome := by
  show execRunOvr s = _
  rw [execRunOvr, h, bne_iff_ne.mpr hovr, Bool.and_self, whenSelected_true]

theorem exec_runCal (h : s.mayStart = true) (hovr : s.ovr = 0) : exec .runCal s = (runWithCal s).outcome := by
  show execRunCal s = _
  rw [execRunCal, h, beq_iff_eq.mpr hovr, Bool.and_self, whenSelected_true]

theorem sendAndFinish_of_sent {t : State} (h : sendActive s = .ok () t) : sendAndFinish s = .ok () t.enterDone := by
  rw [sendAndFinish, h, Res.andThen_ok]

end

/-- Settles O47: the loop of SEND is not entered, and the run ends. -/
theorem runWithRepeatZero : Obligations.RunWithRepeatZero := by
  intro s hidle hwritten hfree hovr hrpt
  have hsend : sendActive (beginOvr s) = .ok () ((beginOvr s).setRep 0) := sendActive_nothing hrpt
  rw [exec_runOvr (mayStart_iff.mpr ⟨hidle, hwritten⟩) hovr, runWithOvr, sendAndFinish_of_sent hsend,
    beginOvr_of_not_frozen hfree]
  rfl

/-- Settles O45: the repetitions of `sendActive_tapes` from the start with an override on. -/
theorem runOvrRow : Obligations.RunOvrRow := by
  intro s k rs c sk ck wk hidle hwritten hfree hovr hk h1 hle hlen hflags hend hsink hcancel hwaits
  subst hk
  have hsend := sendActive_tapes (s := beginOvr s) h1 hle hlen hflags hend hsink hcancel hwaits
  rw [exec_runOvr (mayStart_iff.mpr ⟨hidle, hwritten⟩) hovr, runWithOvr, sendAndFinish_of_sent hsend,
    repetitionsSent_setRep_zero (lt_of_le_of_lt hle (rpt_lt _)), beginOvr_of_not_frozen hfree, Res.outcome_ok]
  simp [State.enterDone, State.active]

/-! ### RUN without an override (R119, R111) -/

/-- The events of a SEND: 176 commits and one read of the flag for each frame, and no clock read. -/
theorem sendEvents_counts (w : LogicalWord) (tu : Micros) : ∀ rs : List (List Nat × Bool), (∀ r ∈ rs, r.1.length = 176) →
    (sendEvents w tu rs).countP Event.isCommit = 176 * rs.length ∧ (sendEvents w tu rs).countP Event.isClock = 0
      ∧ (sendEvents w tu rs).countP Event.isCancel = rs.length
  | [], _ => ⟨rfl, rfl, rfl⟩
  | r :: rs, hlen => by
    obtain ⟨hcommit, hclock, hcancel⟩ := sendEvents_counts w tu rs fun r hr => hlen r (List.mem_cons_of_mem _ hr)
    obtain ⟨kcommit, kclock, kcancel⟩ := slotEvents_counts w tu 0 r.1
    have hr := hlen r List.mem_cons_self
    simp only [sendEvents, frameEvents, List.countP_append, List.countP_cons, hcommit, hclock, hcancel, kcommit, kclock,
      kcancel, Event.isCommit, Event.isClock, Event.isCancel, List.length_cons, hr, Bool.false_eq_true, if_false,
      if_true]
    exact ⟨by omega, trivial, Nat.zero_add _⟩

/-- The repetitions of an uncancelled SEND under a constant overhead. -/
def steadyFrames (n x : Nat) : List (List Nat × Bool) := List.replicate n (List.replicate 176 x, false)

theorem steadyFrames_flags (n x : Nat) : (steadyFrames n x).map Prod.snd = List.replicate n false :=
  List.map_replicate ..

theorem steadyFrames_length (n x : Nat) : (steadyFrames n x).length = n := List.length_replicate ..

theorem length_of_mem_steadyFrames {n x : Nat} {r : List Nat × Bool} (h : r ∈ steadyFrames n x) : r.1.length = 176 := by
  rw [List.eq_of_mem_replicate h, List.length_replicate]

theorem steadyFrames_excesses (n x : Nat) :
    ((steadyFrames n x).flatMap Prod.fst).map WaitAnswer.ends = List.replicate (176 * n) (.ends x) := by
  induction n with
  | zero => rfl
  | succ n ih =>
    have hcons : steadyFrames (n + 1) x = (List.replicate 176 x, false) :: steadyFrames n x := List.replicate_succ ..
    rw [hcons, List.flatMap_cons, List.map_append, ih, List.map_replicate, ← List.replicate_add, Nat.mul_succ,
      Nat.add_comm]

/-- Where an uncancelled SEND under a constant overhead leads. -/
structure SteadySent (x n : Nat) (sk ck : List Bool) (wk : List WaitAnswer) (s t : State) : Prop extends Live s t where
  rep : t.rep = s.active.rpt
  qidx : t.qidx = 0
  line : t.line = false
  cancelled_eq : t.cancelled = s.cancelled
  hist_eq : t.hist = (sendEvents s.active.pack s.tu (steadyFrames n x)).reverse ++ s.hist
  sink : t.env.sink = sk
  cancel : t.env.cancel = ck
  waits : t.env.waits = wk

theorem sendActive_steady {s : State} {x n : Nat} {sk ck : List Bool} {wk : List WaitAnswer}
    (hn : s.active.rpt.toNat = n) (hqidx : s.qidx = 0) (hline : s.line = false)
    (hsink : s.env.sink = List.replicate (176 * n) true ++ sk) (hcancel : s.env.cancel = List.replicate n false ++ ck)
    (hwaits : s.env.waits = List.replicate (176 * n) (.ends x) ++ wk) :
    ∃ t, sendActive s = .ok () t ∧ SteadySent x n sk ck wk s t := by
  rcases Nat.eq_zero_or_pos n with h0 | h0
  · subst h0
    have hzero : s.active.rpt = 0 := BitVec.eq_of_toNat_eq hn
    exact ⟨_, sendActive_nothing hzero, .setRep s 0, hzero.symm, hqidx, hline, rfl, rfl, hsink, hcancel, hwaits⟩
  · have hlen := steadyFrames_length n x
    have hflags := steadyFrames_flags n x
    have hsent : sendActive s = .ok () (repetitionsSent (steadyFrames n x) false sk ck wk (s.setRep 0)) := by
      refine sendActive_tapes (by rw [hlen]; exact h0) (by rw [hlen, hn]) (fun r hr => length_of_mem_steadyFrames hr) ?_
        (.inr (by rw [hlen, hn])) (by rw [hlen]; exact hsink) (by rw [hflags]; exact hcancel)
        (by rw [steadyFrames_excesses]; exact hwaits)
      rw [hflags, hlen, ← List.replicate_succ', Nat.sub_add_cancel h0]
    have hlive : (sendActive s).Ends (fun _ t => Live s t) (Stop s) :=
      (sendActive_keeps s).mono (fun _ _ k => k.1) fun _ k => k
    rw [hsent, Res.ends_ok] at hlive
    rw [repetitionsSent_setRep_zero (by rw [hlen, ← hn]; exact rpt_lt _), hlen] at hsent hlive
    exact ⟨_, hsent, hlive, BitVec.eq_of_toNat_eq (by rw [← hn]; simp), rfl, rfl, by simp, rfl, rfl, rfl, rfl⟩

/-- The counts of a history with a SEND's events on top. -/
theorem SteadySent.counts {x n : Nat} {sk ck : List Bool} {wk : List WaitAnswer} {s t : State}
    (h : SteadySent x n sk ck wk s t) : t.commits = s.commits + 176 * n ∧ t.clockReads = s.clockReads
      ∧ t.flagReads = s.flagReads + n := by
  obtain ⟨hcommit, hclock, hcancel⟩ :=
    sendEvents_counts s.active.pack s.tu (steadyFrames n x) fun r hr => length_of_mem_steadyFrames hr
  simp only [State.commits, State.clockReads, State.flagReads, h.hist_eq, List.countP_append, List.countP_reverse,
    hcommit, hclock, hcancel, steadyFrames_length]
  omega

/-- RUN without an override begins like CALIBRATE in `CAL`. -/
theorem runWithCal_eq (s : State) :
    runWithCal s = (calibrateAll s.enterCal).andThen fun _ t => sendAndFinish t.enterTx := rfl

/-- Settles O46: ten iterations from the seed, then the repetitions at the frozen `TU`. -/
theorem runCalRow : Obligations.RunCalRow := by
  intro s x sk ck cs wk dk hidle hwritten hfree hcan hovr hlen hsink hcancel hwaits hdrift hnow
  obtain ⟨u, hcal, hend, hlive⟩ := calibrateAll_steady (s := s.enterCal) rfl hfree hlen
    (by rw [enterCal_env, hsink, List.replicate_add, List.append_assoc]) hcancel
    (by rw [enterCal_env, hwaits, List.replicate_add, List.append_assoc]) hdrift hnow
  obtain ⟨hrep, hqidx, hline⟩ := hend.last (by decide)
  have hactive : u.enterTx.active = s.p := (active_of_tx rfl).trans hlive.p
  obtain ⟨t, hsend, hsent⟩ := sendActive_steady (s := u.enterTx) (x := x) (congrArg (fun a => a.rpt.toNat) hactive) hqidx
    hline hend.sink hend.cancel hend.waits
  obtain ⟨hcommits, hclocks, hflags⟩ := hsent.counts
  have hseed : seed s.enterCal = { s.enterCal with tu := 250, iter := 0 } := seed_of_not_frozen hfree
  rw [hseed] at hend
  have hist := hsent.hist_eq
  rw [hactive] at hist
  refine ⟨t.enterDone, ?run, rfl, rfl, rfl, hsent.tuf, ?iter, ?rep, ?cancelled, ?tu, ?hist, hsent.qidx, hsent.line,
    hsent.waiting.trans hlive.waiting, ?commits, ?clocks, ?flags, hsent.p.trans hlive.p, hsent.ovr.trans hlive.ovr,
    hsent.written.trans hlive.written, hsent.fatalFlag.trans hlive.fatalFlag, hsent.cause.trans hlive.cause,
    hsent.out.trans hlive.out, hsent.inputs.trans hlive.inputs, hsent.sink, hsent.cancel, hsent.waits,
    hsent.drift.trans hend.drift⟩
  case run =>
    rw [exec_runCal (mayStart_iff.mpr ⟨hidle, hwritten⟩) hovr, runWithCal_eq, hcal, Res.andThen_ok,
      sendAndFinish_of_sent hsend, Res.outcome_ok]
  case iter => exact hsent.iter.trans (BitVec.eq_of_toNat_eq hend.iter)
  case rep => exact hsent.rep.trans (congrArg Params.rpt hactive)
  case cancelled => exact hsent.cancelled_eq.trans (hlive.cancelled.trans hcan)
  case tu => exact (congrArg BitVec.toNat hsent.tu).trans hend.tu
  case hist =>
    have htu : t.enterDone.tu = u.enterTx.tu := hsent.tu
    rw [htu]
    exact hist.trans (congrArg _ hend.hist)
  case commits => exact hcommits.trans (congrArg (· + 176 * s.p.rpt.toNat) hend.commits)
  case clocks => exact hclocks.trans hend.clocks
  case flags => exact hflags.trans (congrArg (· + s.p.rpt.toNat) hend.flags)

end Sys2Proof.Machine
end

section
/-! RUN as one operation and the run that START begins and the sequencer carries on slot by slot (decision D18; log 10,
log 11): from each stage of the run, the ticks lead where the rest of the operation leads. -/

namespace Sys2Proof.Machine

/-! ### Enough steps -/

/-- After enough steps the machine has come to the outcome `o`, and stays there. -/
def Settles (s : State) (o : Host.Outcome State Fault Refusal) : Prop := ∃ n, ∀ m, n ≤ m → core.run m s = o

theorem Settles.stays {s : State} (hi : s.inputs = []) (h : s.mayAct = false) : Settles s (.next s) :=
  ⟨0, fun m _ => core_run_of_not_mayAct hi h m⟩

theorem Settles.step {s t : State} {o : Host.Outcome State Fault Refusal} (h : step s = .next t) (k : Settles t o) :
    Settles s o := by
  obtain ⟨n, hn⟩ := k
  refine ⟨n + 1, fun m hm => ?_⟩
  obtain ⟨m, rfl⟩ := Nat.exists_eq_add_of_le' (Nat.le_of_add_left_le hm)
  rw [core_run_succ h]
  exact hn m (by omega)

/-! ### One frame -/

theorem selected_iff {s : State} : s.selected ≠ none ↔ s.waiting = none ∧ ((s.phase = .cal ∧ s.iter.toNat < 10)
    ∨ (s.phase = .tx ∧ s.cancelled = false ∧ s.rep.toNat < s.p.rpt.toNat)) := by
  refine ⟨selected_ne_none, ?_⟩
  rintro ⟨hwait, ⟨hcal, hiter⟩ | ⟨htx, hcan, hrep⟩⟩
  · simp [State.selected, hcal, hwait, hiter]
  · simp [State.selected, htx, hwait, hcan, BitVec.ule, hrep]

/-- What the slots of a frame leave as it was. -/
structure SlotsThrough (s t : State) : Prop extends Live s t where
  rep : t.rep = s.rep
  cancelled_eq : t.cancelled = s.cancelled

theorem SlotsThrough.trans {s t u : State} (h : SlotsThrough s t) (k : SlotsThrough t u) : SlotsThrough s u :=
  ⟨h.toLive.trans k.toLive, k.rep.trans h.rep, k.cancelled_eq.trans h.cancelled_eq⟩

theorem SlotsThrough.slot (w : LogicalWord) (x : Nat) (s : State) (q : BitVec 8) :
    SlotsThrough s ((slotDone w x s).setQidx q) :=
  ⟨(Live.slotDone w x s).trans (.setQidx _ q), by simp, by simp⟩

/-- A tick at a selected position: the slot, and what comes after it. -/
theorem step_of_selected {s : State} (hi : s.inputs = []) (hsel : s.selected ≠ none) :
    step s = ((quarterStep s.active.pack (beforeSlot s)).andThen fun _ t => afterSlot t).outcome := by
  rw [step_of_no_inputs hi, tick]
  cases h : s.selected with
  | none => exact absurd h hsel
  | some i => rfl

theorem Stop.mayAct {s t : State} (h : Stop s t) : t.mayAct = false :=
  h.elim (fun hcut => mayAct_of_not_inRun (by simp [State.inRun, hcut.phase])) fun hhung => mayAct_of_hung hhung.waiting

/-- A slot that is cut ends the run there. -/
theorem Settles.of_cut {s t : State} (hi : s.inputs = []) (hsel : s.selected ≠ none)
    (h : quarterStep s.active.pack (beforeSlot s) = .cut t) : Settles s (.next t) := by
  have hkeeps := quarterStep_keeps s.active.pack (beforeSlot s)
  rw [h, Res.ends_cut] at hkeeps
  have hstep : Machine.step s = .next t := by
    rw [step_of_selected hi hsel, h, Res.andThen_cut, Res.outcome_cut]
  exact .step hstep (.stays (hkeeps.kept.inputs.trans ((beforeSlot_inputs s).trans hi)) hkeeps.mayAct)

theorem Settles.of_slot {s : State} {x : Nat} {o : Host.Outcome State Fault Refusal} (hi : s.inputs = [])
    (hsel : s.selected ≠ none) (hq : s.qidx.toNat < 175)
    (h : quarterStep s.active.pack (beforeSlot s) = .ok () (slotDone s.active.pack x (beforeSlot s)))
    (k : Settles ((slotDone s.active.pack x (beforeSlot s)).setQidx (s.qidx + 1)) o) : Settles s o := by
  refine .step ?_ k
  rw [step_of_selected hi hsel, h, Res.andThen_ok, afterSlot_inside (by simpa using hq), Res.outcome_ok, slotDone_qidx,
    beforeSlot_qidx]

/-- The position stays selected to the next slot of its frame. -/
theorem selected_next_slot {s : State} (hsel : s.selected ≠ none) (x : Nat) (q : BitVec 8) :
    ((slotDone s.active.pack x (beforeSlot s)).setQidx q).selected ≠ none := by
  obtain ⟨hwait, hpos⟩ := selected_iff.mp hsel
  refine selected_iff.mpr ⟨by simpa using hwait, hpos.imp (by simp) fun htx => ?_⟩
  simpa [beforeSlot_of_tx htx.1] using htx

/-- From a selected position the ticks lead through the frame's slots, one for each that is left, and then from its end
`E` where the rest `F` of the operation leads. -/
theorem Settles.frame {E : State → Res Unit} {F : Unit → State → Res Unit} : ∀ (n : Nat) (s : State), s.inputs = [] →
    s.selected ≠ none → s.qidx.toNat + n = 175 →
    (∀ t, t.phase = s.phase → t.qidx.toNat = 175 → afterSlot t = E (t.setQidx 0)) →
    (∀ u, SlotsThrough (beforeSlot s) u → u.qidx = 0 →
      ∃ v, (E u).outcome = .next v ∧ Settles v (F () u).outcome) →
    Settles s ((slotsFrom s.active.pack n (beforeSlot s)).andThen F).outcome
  | 0, s, hi, hsel, hq, hlast, hend => by
    rcases quarterStep_cases s.active.pack (beforeSlot s) with ⟨_, _, x, _, h⟩ | ⟨_, _, h⟩ | ⟨_, _, _, h⟩ | ⟨hgt, _⟩
    · have hthrough := SlotsThrough.slot s.active.pack x (beforeSlot s) 0
      obtain ⟨v, hv, hsettles⟩ := hend _ hthrough rfl
      rw [slotsFrom, h]
      refine .step ?_ hsettles
      rw [step_of_selected hi hsel, h, Res.andThen_ok, hlast _ (by simp) (by simpa using hq), hv]
    · rw [slotsFrom, h]
      exact .of_cut hi hsel h
    · rw [slotsFrom, h]
      exact .of_cut hi hsel h
    · rw [beforeSlot_qidx] at hgt
      omega
  | n + 1, s, hi, hsel, hq, hlast, hend => by
    rcases quarterStep_cases s.active.pack (beforeSlot s) with ⟨_, _, x, _, h⟩ | ⟨_, _, h⟩ | ⟨_, _, _, h⟩ | ⟨hgt, _⟩
    · have hthrough := SlotsThrough.slot s.active.pack x (beforeSlot s) (s.qidx + 1)
      have hnext := qidx_succ (q := s.qidx) (by omega)
      refine .of_slot hi hsel (by omega) h ?_
      rw [slotsFrom, h, Res.andThen_ok, slotDone_qidx, beforeSlot_qidx]
      have hsel' := selected_next_slot hsel x (s.qidx + 1)
      have hactive : ((slotDone s.active.pack x (beforeSlot s)).setQidx (s.qidx + 1)).active = s.active :=
        active_congr (by simp) (by simp)
      generalize hs' : (slotDone s.active.pack x (beforeSlot s)).setQidx (s.qidx + 1) = s' at *
      have hqidx : s'.qidx.toNat = s.qidx.toNat + 1 := by rw [← hs', setQidx_qidx, hnext]
      have hbefore : beforeSlot s' = s' := beforeSlot_of_inside fun h0 => by simp [h0] at hqidx
      have hrest := Settles.frame (F := F) n s' (hthrough.inputs.trans ((beforeSlot_inputs s).trans hi)) hsel' (by omega)
        (fun t hphase => hlast t (hphase.trans (hthrough.phase.trans (beforeSlot_phase s))))
        (fun u hu => hend u (hthrough.trans (hbefore ▸ hu)))
      rwa [hactive, hbefore] at hrest
    · rw [slotsFrom, h]
      exact .of_cut hi hsel h
    · rw [slotsFrom, h]
      exact .of_cut hi hsel h
    · rw [beforeSlot_qidx] at hgt
      omega

/-! ### The real frames (41_phase_transmitter.md R92) -/

/-- A stage of real frames between two of them, with `n` repetitions left over. -/
structure TxReady (n : Nat) (s : State) : Prop where
  inputs : s.inputs = []
  phase : s.phase = .tx
  waiting : s.waiting = none
  qidx : s.qidx = 0
  cancelled : s.cancelled = false
  rep : s.rep.toNat + n = s.p.rpt.toNat

theorem afterSlot_last_tx {s : State} (htx : s.phase = .tx) (hq : s.qidx.toNat = 175) :
    afterSlot s = afterTxFrame (s.setQidx 0) := by
  rw [afterSlot, if_neg (by omega), htx]

theorem Settles.done {s : State} (hi : s.inputs = []) : Settles s.enterDone (.next s.enterDone) :=
  .stays hi (mayAct_of_not_inRun rfl)

/-- The end of a real frame: where `TX` goes on, the flag was not read true, and one repetition less is left over. -/
theorem TxReady.endRepetition {n : Nat} {s u : State} (h : TxReady (n + 1) s) (hu : SlotsThrough s u) (hq : u.qidx = 0)
    (hflag : flagAtEnd u = false) : TxReady n (endRepetition u) where
  inputs := by simpa using hu.inputs.trans h.inputs
  phase := by simpa using hu.phase.trans h.phase
  waiting := by simpa using hu.waiting.trans h.waiting
  qidx := by simpa using hq
  cancelled := by
    have hnext : u.env.nextCancel = false := hflag
    simp [hnext, hu.cancelled_eq, h.cancelled]
  rep := by
    have hrep := h.rep
    have hlt : u.rep < u.p.rpt := BitVec.lt_def.mpr (by rw [hu.rep, hu.p]; omega)
    rw [endRepetition_rep, endRepetition_p, rep_succ_toNat hlt, hu.rep, hu.p]
    omega

theorem Settles.repetitions : ∀ (n : Nat) (s : State), TxReady n s →
    Settles s ((repetitions n s).andThen fun _ t => .ok () t.enterDone).outcome
  | 0, s, h => by
    have hsel : s.selected = none := by
      have hrep := h.rep
      simp [State.selected, h.phase, h.waiting, h.cancelled, BitVec.ule]
      omega
    have hstep : Machine.step s = .next s.enterDone := by
      rw [step_of_no_inputs h.inputs, tick, hsel]
      simp [endStage, h.waiting, h.phase]
    exact .step hstep (.done h.inputs)
  | n + 1, s, h => by
    have hsel : s.selected ≠ none := selected_iff.mpr
      ⟨h.waiting, .inr ⟨h.phase, h.cancelled, by have hrep := h.rep; omega⟩⟩
    have hbefore : beforeSlot s = s := beforeSlot_of_tx h.phase
    have hzero : s.setQidx 0 = s := by rw [← h.qidx]; rfl
    rw [Machine.repetitions, transmitWord, hzero, Res.andThen_assoc]
    have hframe := Settles.frame (E := afterTxFrame)
      (F := fun _ t => (if flagAtEnd t then Res.ok () (endRepetition t)
        else Machine.repetitions n (endRepetition t)).andThen fun _ t => .ok () t.enterDone)
      175 s h.inputs hsel (by simp [h.qidx]) (fun t hphase => afterSlot_last_tx (hphase.trans h.phase)) ?_
    · rwa [hbefore] at hframe
    · intro u hu hq
      rw [hbefore] at hu
      refine ⟨_, rfl, ?_⟩
      have hi : (Machine.endRepetition u).inputs = [] := by simpa using hu.inputs.trans h.inputs
      cases hflag : flagAtEnd u with
      | true =>
        rw [if_pos rfl, Bool.true_or, if_pos rfl]
        exact .done hi
      | false =>
        have hready := h.endRepetition hu hq hflag
        have hrep := hready.rep
        have ih := Settles.repetitions n _ hready
        rw [if_neg Bool.false_ne_true, Bool.false_or]
        rcases Nat.eq_zero_or_pos n with h0 | h0
        · have hlast : (Machine.endRepetition u).p.rpt.ule (Machine.endRepetition u).rep = true :=
            decide_eq_true (by omega)
          subst h0
          rw [if_pos hlast]
          exact .done hi
        · have hmore : ¬(Machine.endRepetition u).p.rpt.ule (Machine.endRepetition u).rep = true := by
            rw [BitVec.ule, decide_eq_true_iff]
            omega
          rw [if_neg hmore]
          exact ih

/-- A stage of real frames that begins: `SEND` sets `REP` to the 0 it has. -/
theorem Settles.sendAndFinish {s : State} (h : TxReady s.p.rpt.toNat s) (hrep : s.rep = 0) :
    Settles s (sendAndFinish s).outcome := by
  have hzero : s.setRep 0 = s := by rw [← hrep]; rfl
  have hrpt : s.active.rpt.toNat = s.p.rpt.toNat := by rw [active_of_tx h.phase]
  rw [Machine.sendAndFinish, sendActive, hzero, hrpt]
  exact .repetitions _ s h

/-! ### The calibration frames (42_calibrator.md R105, R107, R108) -/

/-- What an iteration does after its frame's slots. -/
def iterationEnd (s : State) : Res Unit :=
  (closeMeasure (endRepetition s)).andThen fun meas t =>
    (correct meas t).andThen fun _ t => .ok () (t.setIter (t.iter + 1))

/-- The bookkeeping after a calibration frame is the iteration's end, and after the last one the end of the stage. -/
theorem afterCalFrame_eq (s : State) : afterCalFrame s
    = (iterationEnd s).andThen fun _ t => .ok () (if 10 ≤ t.iter.toNat then t.enterTx else t) := by
  rw [afterCalFrame, iterationEnd, Res.andThen_assoc]
  congr 1
  funext meas t
  rw [Res.andThen_assoc]
  rfl

/-- An iteration that begins between frames is the frame's slots, as the sequencer begins them, and its end. -/
theorem iteration_eq {s : State} (hcal : s.phase = .cal) (hq : s.qidx = 0) :
    iteration s = (slotsFrom s.active.pack 175 (beforeSlot s)).andThen fun _ t => iterationEnd t := by
  have hopen : (openMeasure s).phase = .cal := (openMeasure_phase s).trans hcal
  have hactive : (openMeasure s).active = s.active := active_congr (openMeasure_phase s) (openMeasure_p s)
  have hbefore : ((openMeasure s).setRep 0).setQidx 0 = beforeSlot s := by
    rcases beforeSlot_cases s with ⟨_, _, e⟩ | ⟨hne, _⟩
    · rw [e, ← hq]
      rfl
    · exact absurd ⟨hcal, hq⟩ hne
  rw [iteration, measure, sendActive_of_cal hopen, hactive, hbefore, Res.andThen_assoc, Res.andThen_assoc]
  rfl

/-- An iteration's end completes the iteration, or a fault is taken. -/
theorem iterationEnd_cases {s : State} (hcal : s.phase = .cal) (hq : s.qidx = 0) :
    (∃ t, iterationEnd s = .ok () t ∧ CalLive s t ∧ t.qidx = 0 ∧ t.iter = s.iter + 1)
    ∨ ∃ t, iterationEnd s = .cut t ∧ CalCut s t := by
  have hlive : CalLive s (frameClosed s) := .frameClosed hcal
  have hqidx : (frameClosed s).qidx = 0 := by simpa [frameClosed] using hq
  have hiter : (frameClosed s).iter = s.iter := by simp [frameClosed]
  rw [iterationEnd, closeMeasure, Res.andThen_ok, ← frameClosed]
  generalize frameClosed s = u at *
  have hle : u.qidx.toNat ≤ 175 := by simp [hqidx]
  rcases correct_cases (measOf ((endRepetition s).clockNext - (endRepetition s).t0)) u with
    ⟨_, h⟩ | ⟨_, _, h⟩ | ⟨_, _, h⟩ <;> rw [h]
  · exact .inr ⟨_, rfl, hlive.cut (.takeFault u _ hle)⟩
  · exact .inr ⟨_, rfl, hlive.cut (.takeFault u _ hle)⟩
  · exact .inl ⟨_, rfl, (hlive.trans (.writeTU u _)).trans (.setIter _ _), hqidx,
      by rw [setIter_iter, writeTU_iter, hiter]⟩

/-- A stage of calibration frames between two of them, with `n` iterations left over. -/
structure CalReady (n : Nat) (s : State) : Prop where
  inputs : s.inputs = []
  phase : s.phase = .cal
  waiting : s.waiting = none
  qidx : s.qidx = 0
  cancelled : s.cancelled = false
  iter : s.iter.toNat + n = 10

theorem afterSlot_last_cal {s : State} (hcal : s.phase = .cal) (hq : s.qidx.toNat = 175) :
    afterSlot s = afterCalFrame (s.setQidx 0) := by
  rw [afterSlot, if_neg (by omega), hcal]

theorem CalReady.next {n : Nat} {s t : State} (h : CalReady (n + 1) s) (hlive : CalLive s t) (hq : t.qidx = 0)
    (hiter : t.iter = s.iter + 1) : CalReady n t where
  inputs := hlive.inputs.trans h.inputs
  phase := hlive.phase.trans h.phase
  waiting := hlive.waiting.trans h.waiting
  qidx := hq
  cancelled := hlive.cancelled.trans h.cancelled
  iter := by
    have hle := h.iter
    rw [hiter, iter_succ_toNat (by omega)]
    omega

theorem CalReady.txReady {s : State} (h : CalReady 0 s) : TxReady s.enterTx.p.rpt.toNat s.enterTx :=
  ⟨h.inputs, rfl, h.waiting, h.qidx, h.cancelled, by simp⟩

/-- From between two calibration frames the ticks lead through one iteration, and then where the rest `G` leads. -/
theorem Settles.iteration {n : Nat} {s : State} (h : CalReady (n + 1) s) {G : Unit → State → Res Unit}
    (hG : ∀ t, CalReady n t → Settles (if 10 ≤ t.iter.toNat then t.enterTx else t) (G () t).outcome) :
    Settles s ((iteration s).andThen G).outcome := by
  have hsel : s.selected ≠ none := selected_iff.mpr ⟨h.waiting, .inl ⟨h.phase, by have hiter := h.iter; omega⟩⟩
  have hlive := CalLive.beforeSlot h.phase
  rw [iteration_eq h.phase h.qidx, Res.andThen_assoc]
  refine .frame 175 s h.inputs hsel (by simp [h.qidx]) (fun t hphase => afterSlot_last_cal (hphase.trans h.phase)) ?_
  intro u hu hq
  have hphase : u.phase = .cal := hu.phase.trans (hlive.phase.trans h.phase)
  have hthrough : CalLive s u := hlive.trans (hu.toLive.cal (hlive.phase.trans h.phase))
  rcases iterationEnd_cases hphase hq with ⟨t, e, hend, hqidx, hiter⟩ | ⟨t, e, hcut⟩
  · refine ⟨_, by rw [afterCalFrame_eq, e, Res.andThen_ok, Res.outcome_ok], ?_⟩
    rw [e, Res.andThen_ok]
    exact hG t (h.next (hthrough.trans hend) hqidx (by rw [hiter, hu.iter, beforeSlot_iter]))
  · refine ⟨t, by rw [afterCalFrame_eq, e, Res.andThen_cut, Res.outcome_cut], ?_⟩
    rw [e, Res.andThen_cut, Res.outcome_cut]
    exact .stays (hcut.inputs.trans (hthrough.inputs.trans h.inputs))
      (mayAct_of_not_inRun (by simp [State.inRun, hcut.phase]))

/-- From there they lead through the iterations left over, and then through the real frames. -/
theorem Settles.iterations : ∀ (n : Nat) (s : State), CalReady (n + 1) s →
    Settles s ((iterations (n + 1) s).andThen fun _ t => Machine.sendAndFinish t.enterTx).outcome
  | 0, s, h => by
    rw [Machine.iterations, Res.andThen_assoc]
    refine .iteration h fun t ht => ?_
    have hiter := ht.iter
    rw [if_pos (by omega)]
    exact .sendAndFinish ht.txReady rfl
  | n + 1, s, h => by
    rw [Machine.iterations, Res.andThen_assoc]
    refine .iteration h fun t ht => ?_
    have hiter := ht.iter
    rw [if_neg (by omega)]
    exact .iterations n t ht

/-! ### The whole run -/

/-- Nothing of a run exists in `IDLE`: a run begins between frames, with no cancellation read. -/
theorem calReady_beginCal {s : State} (hs : Inv s) (hidle : s.phase = .idle) (hi : s.inputs = []) :
    CalReady 10 (beginCal s) where
  inputs := hi
  phase := rfl
  waiting := hs.waiting_of_not_inRun (by simp [State.inRun, hidle])
  qidx := (hs.idle_fresh hidle).2.2.1
  cancelled := hs.cancelled_late (.inl hidle)
  iter := rfl

theorem txReady_beginOvr {s : State} (hs : Inv s) (hidle : s.phase = .idle) (hi : s.inputs = []) :
    TxReady (beginOvr s).p.rpt.toNat (beginOvr s) where
  inputs := hi
  phase := rfl
  waiting := hs.waiting_of_not_inRun (by simp [State.inRun, hidle])
  qidx := (hs.idle_fresh hidle).2.2.1
  cancelled := hs.cancelled_late (.inl hidle)
  rep := Nat.zero_add _

theorem step_start {s : State} (h : s.mayStart = true) :
    step (s.withInput .start) = .next (if s.ovr = 0 then beginCal s else beginOvr s) := by
  rw [step_of_operation (s := s.withInput .start) (i := .start) rfl, moveOn_withInput, exec_start h]

/-- Settles O48: the step of START begins the run, and from there the ticks lead where the stages of RUN lead. -/
theorem startThenStepsIsRun : Obligations.StartThenStepsIsRun := by
  intro s hs hi hstart
  have hidle := (mayStart_iff.mp hstart).1
  have hstep := step_start hstart
  by_cases hovr : s.ovr = 0
  · rw [if_pos hovr] at hstep ⊢
    rw [exec_runCal hstart hovr]
    exact Settles.step hstep (.iterations 9 _ (calReady_beginCal hs hidle hi))
  · rw [if_neg hovr] at hstep ⊢
    rw [exec_runOvr hstart hovr]
    exact Settles.step hstep (.sendAndFinish (txReady_beginOvr hs hidle hi) rfl)

end Sys2Proof.Machine
end
